-- ==== Sys2Proof/Word.lean ====
section
/-! DEFINITION. The word types of the spec's conventions (R9 to R14) and the sparse map type every table of the
state is written with. -/
namespace Sys2Proof

/-- A byte of a byte stream (R10). -/
abbrev Byte := BitVec 8
/-- Memory and registers are addressed in 16-bit words (R9, R14). -/
abbrev Word := BitVec 16
/-- A word address, or a value of two words (R9, R11). -/
abbrev W32 := BitVec 32
/-- A value of four words: a DTB value, a fine-step stamp, an E accumulator (R11, R22, R153). -/
abbrev W64 := BitVec 64
/-- Subchannel number: hearth [12:10], firebox [9:7], stoker [6:4], context [3:0] (R4). -/
abbrev Sub := BitVec 13
/-- Global stoker number (R4). -/
abbrev StokerNo := BitVec 9
/-- Global firebox number (R4). -/
abbrev FireboxNo := BitVec 6
/-- Hearth number (R4). -/
abbrev HearthNo := BitVec 3
/-- Grate number (R19). -/
abbrev GrateNo := BitVec 6
/-- Device pin number g × 16 + p (R19). -/
abbrev DevPin := BitVec 10
/-- Chimney lane number (R20). -/
abbrev LaneNo := BitVec 5
/-- Chimney quad number (R20). -/
abbrev QuadNo := BitVec 3
/-- Flue port number (R20). -/
abbrev PortNo := BitVec 2
/-- Device number (R4). -/
abbrev DevNo := BitVec 12
/-- Work or completion queue number (R316, R324). -/
abbrev QueueNo := BitVec 6
/-- Damper rule number (R214). -/
abbrev RuleNo := BitVec 8
/-- Event source number within a hearth (R291). -/
abbrev EvNo := BitVec 10
/-- Register block index (R6). -/
abbrev BlkNo := BitVec 12

/-- A sparse map: keys strictly rising, no entry equal to the default of its key. -/
abbrev FMap (α : Type) := List (Nat × α)

end Sys2Proof
end

