-- ==== Sys2Proof/Syntax.lean ====
section
/-! DEFINITION. The commands of the block: one constructor of Instr for each row of spec/opcode_table.json, with the
operand types they carry. A stoker instruction carries its decoded operand fields (R139 to R156); a sequencer
microoperation carries the fields of its microword (R205); a happening outside the block (a pin edge, a received frame,
a sensor value) carries what the outside world supplies. -/
namespace Sys2Proof

/-- The sources of an access (R17, R23, R371). A stoker source names the writing context's subchannel. -/
inductive Src where
  | i3c
  | bulk
  | flue (p : PortNo)
  | boot
  | stoker (sub : Sub)
deriving DecidableEq, Repr

/-- A data register D0 to D15 (R143). -/
abbrev Dreg := BitVec 4
/-- An address register A0 to A7 (R143). -/
abbrev Areg := BitVec 3
/-- An accumulator E0 to E3 (R143). -/
abbrev Ereg := BitVec 2
/-- An extended register code (R143). -/
abbrev Xr := BitVec 6

/-- A repeat prefix: none, REP with its count byte, or REPD with its register byte's field (R140). -/
inductive Rep where
  | none
  | rep (n : Byte)
  | repd (k : Dreg)
deriving DecidableEq, Repr

/-- The issue of one instruction: the context that issues it (R109) and the prefixes it carries (R140, R141). -/
structure Iss where
  sub : Sub
  rep : Rep := .none
  wide : Bool := false
  dbl : Bool := false
  bank : Option (BitVec 2) := Option.none
  noflag : Bool := false
  atom : Bool := false
deriving DecidableEq, Repr

/-- An EA specifier (R144). -/
inductive EA where
  | ind (an : Areg)
  | postInc (an : Areg)
  | preDec (an : Areg)
  | disp8 (an : Areg) (d : Byte)
  | disp16 (an : Areg) (d : Word)
  | index (an : Areg) (dk : Dreg)
  | abs (a : W32)
  | reg (d : Word)
deriving DecidableEq, Repr

/-- The source of a row 3, 4 or 5 operation (R149, R150): Dm, an immediate, or memory. -/
inductive AluSrc where
  | reg (dm : Dreg)
  | imm (v : W32)
  | mem (ea : EA)
deriving DecidableEq, Repr

/-- The source of ADDA (R150). -/
inductive AddaSrc where
  | imm (v : Word)
  | reg (dm : Dreg)
deriving DecidableEq, Repr

/-- The displacement of a conditional branch: row 1 or row 2 (R146, R147). -/
inductive BrDisp where
  | d8 (d : Byte)
  | d16 (d : Word)
deriving DecidableEq, Repr

/-- The fields of a microword other than its OP, and whether its parity holds (R205). -/
structure Micro where
  p : BitVec 4 := 0
  ka : BitVec 3 := 0
  kb : BitVec 3 := 0
  cc : BitVec 4 := 0
  s : BitVec 4 := 0
  t : Byte := 0
  imm : Word := 0
  parityOk : Bool := true
deriving DecidableEq, Repr

/-- A FIFO: FIFO i of a grate (0 to 3 inbound, 4 to 7 outbound, R183), or FIFO f of a lane (R257). -/
inductive FifoId where
  | grate (g : GrateNo) (i : BitVec 3)
  | lane (l : LaneNo) (f : BitVec 2)
deriving DecidableEq, Repr

/-- The requester of a fabric transaction that has no answer after 2 µs (R236): a load, a posted store, a code fetch or
a channel fetch of a subchannel, a draught channel's transaction. -/
inductive BusReq where
  | load (sub : Sub)
  | store (sub : Sub)
  | code (sub : Sub) (addr : W32)
  | ccw (sub : Sub)
  /-- the command table entry, or the IDA entry, of the CCW whose words have just come (R237), or the next IDA entry -/
  | table (sub : Sub)
  | ida (sub : Sub)
  | draught (f : FireboxNo) (n : BitVec 4)
  /-- a remote operation of a work queue or of RESUME-OTHER (R284), an access of the I3C window or of the bulk port -/
  | wq (n : QueueNo)
  | resume (sub : Sub)
  | host (bulk : Bool)
  /-- a request that arrived on flue port p (R283) -/
  | port (p : PortNo)
deriving DecidableEq, Repr

/-- A frame or packet as a lane's receiver sees it (R258, R259, R262): its bytes after the start delimiter, an FCS
included; the status the line gives it; the stamp of its reference point (R264). In stream mode it brings data
characters. -/
structure RxFrame where
  bytes : List Byte
  fcsErr : Bool := false
  /-- code and disparity violations in it -/
  codeErrs : Byte := 0
  trunc : Bool := false
  stamp : W64 := 0
  /-- codewords that forward error correction corrected -/
  fecCorr : Word := 0
deriving DecidableEq, Repr

/-- How a CCC of the RSTACT row comes (R308): as RSTACT, broadcast or direct, or as a CCC or with a defining byte that the
target does not support; ENTHDR for an HDR mode other than HDR-DDR among them (R306). -/
inductive CccForm where
  | broadcast
  | direct
  | enterHdr
  | unknownBroadcast
  | unknownDirect
deriving DecidableEq, Repr

/-- A field of the bulk port's configuration space (R266 to R268): identification, and the three that a configuration write
changes: Bus Master Enable in the command register, the power state, and the MSI-X enable and function mask. -/
inductive CfgField where
  | deviceId
  | vendorId
  | classCode
  | subsystemVendor
  | subsystem
  | command
  | powerState
  | msixControl
deriving DecidableEq, Repr

/-- A flue packet: header fields and payload words (R274). -/
structure Packet where
  dest : DevNo
  hops : BitVec 4 := 0
  src : DevNo
  seq : BitVec 12 := 0
  len : BitVec 4 := 0
  tag : Byte := 0
  stat : BitVec 4 := 0
  cnt : BitVec 4 := 0
  payload : List Word := []
deriving DecidableEq, Repr

/-- Why a received flue packet is rejected (R274, R277): a failed CRC, a SEQ out of order, or a malformed packet. -/
inductive BadPkt where
  | crc
  | order
  | malformed
deriving DecidableEq, Repr

/-- A received flue packet that is rejected: why, and whether it is a completion. -/
structure BadArrival where
  kind : BadPkt
  cpl : Bool
deriving DecidableEq, Repr

/-- A time exchange of an upstream port (R286): whether it is lost, and t1 of its TIME block. -/
structure TimeTry where
  lost : Bool
  t1 : W64
deriving DecidableEq, Repr

/-- What a boot stage learns from outside the device (R356, R357): whether the known-answer check passed, whether the
flash answered and in which mode, the bank's capacity in words, the words of header, directory and signature read, the
GDDR6 devices that trained, and the banks whose calibration failed. -/
structure BootInfo where
  katOk : Bool := true
  flashOk : Bool := true
  octal : Bool := true
  capWords : Nat := 0
  words : List Word := []
  trained : BitVec 4 := 0xF
  calFail : Word := 0
deriving DecidableEq, Repr

/-- A pulse at SYNC_IN (R31, R32): whether its edge rises, its width in gc, and the stamp of the edge. -/
structure SyncPulse where
  rising : Bool
  width : Word
  stamp : W64
deriving DecidableEq, Repr

/-- The words of a CCW arrive (R56, R239): whose, and how the burst failed, 0 for not at all. -/
structure FetchEnd where
  sub : Sub
  err : BitVec 3
deriving DecidableEq, Repr

/-- What a ball shows (R186): the level outside, and whether the outside lets the ball go. -/
structure BallIn where
  level : Bool
  float : Bool
deriving DecidableEq, Repr

/-- What the bank monitor measures (R196): the bank, and VDDIO in mV. -/
structure BankSupply where
  bank : BitVec 4
  mv : Word
deriving DecidableEq, Repr

/-- The end of a draught channel's descriptor fetch or burst (R245, R239): the channel, and how the burst failed, 0 for not
at all. -/
structure ChanEnd where
  n : BitVec 4
  err : BitVec 3
deriving DecidableEq, Repr

/-- A lane starts sending (R260, R264): the lane, and when the first bit crosses the ball. -/
structure FrameStart where
  lane : LaneNo
  stamp : W64
deriving DecidableEq, Repr

/-- A lane's new LINK (R261), and how many bytes had left of a frame that was being sent. -/
structure LinkNow where
  up : Bool
  sent : BitVec 14
deriving DecidableEq, Repr

/-- How a request frame was received (R313): whether its CRC and its length are right. -/
structure FrameChecks where
  crc : Bool
  len : Bool
deriving DecidableEq, Repr

/-- The commands: one constructor for each row of spec/opcode_table.json. -/
inductive Instr where
  /-- DTB_LOAD (R24). -/
  | dtbLoad (src : Src) (val : Word)
  /-- DTB_W0_READ (R23). -/
  | dtbW0Read (src : Src)
  /-- FRM_CTL_RUN_SET (R29). -/
  | frmCtlRunSet (src : Src) (startSync : Bool)
  /-- FRM_CTL_RUN_CLEAR (R29). -/
  | frmCtlRunClear (src : Src) (startSync : Bool)
  /-- FRAME_STOP_COMPLETE (R29). -/
  | frameStopComplete
  /-- FRM_PERIOD_HI_WRITE (R27). -/
  | frmPeriodHiWrite (src : Src) (val : Word)
  /-- FRM_PERIOD_LO_WRITE (R27). -/
  | frmPeriodLoWrite (src : Src) (val : Word)
  /-- ASH_NS_WRITE (R28). -/
  | ashNsWrite (src : Src) (val : Word)
  /-- SYNC_CTL_WRITE (R27). -/
  | syncCtlWrite (src : Src) (val : Word)
  /-- TICK_DECISION (R40). -/
  | tickDecision
  /-- TICK (R30). -/
  | tick
  /-- SHADOW_SWITCH (R44). -/
  | shadowSwitch
  /-- SYNC_OUT_PULSE_END (R31). -/
  | syncOutPulseEnd
  /-- SYNC_IN_PULSE (R33). -/
  | syncInPulse (p : SyncPulse)
  /-- SYNC_WINDOW_CLOSE (R34). -/
  | syncWindowClose
  /-- ASH_SLOT_START (R42). -/
  | ashSlotStart (calFail : Word)
  /-- SCHEDULE_WINDOW_START (R38). -/
  | scheduleWindowStart (stk : StokerNo) (entry : BitVec 5)
  /-- SCHEDULE_WINDOW_END (R38). -/
  | scheduleWindowEnd (stk : StokerNo) (entry : BitVec 5)
  /-- SCHED_SWAP_REQUEST (R40). -/
  | schedSwapRequest (src : Src) (stk : StokerNo)
  /-- SLOT_WRITE (R41). -/
  | slotWrite (src : Src) (stk : StokerNo) (tableB : Bool) (entry : BitVec 5) (w : BitVec 2) (val : Word)
  /-- START (R52). -/
  | start (src : Src) (sub : Sub) (addr : W32) (parm : Word)
  /-- HALT (R77). -/
  | halt (src : Src) (sub : Sub)
  /-- CLEAR (R79). -/
  | clear (src : Src) (sub : Sub)
  /-- RESUME (R73). -/
  | resume (src : Src) (sub : Sub)
  /-- MODIFY (R73). -/
  | modify (src : Src) (sub : Sub) (addr : W32)
  /-- TEST (R50). -/
  | test (src : Src) (sub : Sub)
  /-- RETIRE_PATH (R74). -/
  | retirePath (src : Src) (sub : Sub) (path : BitVec 2)
  /-- RESTORE_PATH (R74). -/
  | restorePath (src : Src) (sub : Sub) (path : BitVec 2)
  /-- OPERATION_MALFORMED (R47). -/
  | operationMalformed (src : Src) (stk : StokerNo)
  /-- CCW_FETCH_COMPLETE (R56). -/
  | ccwFetchComplete (e : FetchEnd)
  /-- TIMED_WAIT_EXPIRY (R71). -/
  | timedWaitExpiry (sub : Sub)
  /-- CCW_TIMEOUT (R78). -/
  | ccwTimeout (sub : Sub)
  /-- STATUS_POST (R325). -/
  | statusPost (sub : Sub)
  /-- LOOKAHEAD_FETCH (R88). -/
  | lookaheadFetch (sub : Sub)
  /-- DATA_PREFETCH (R89). -/
  | dataPrefetch (sub : Sub)
  /-- SPECULATIVE_ENTRY (R94). -/
  | speculativeEntry (sub : Sub)
  /-- DEFERRED_STATUS_DELIVERY (R92). -/
  | deferredStatusDelivery (sub : Sub)
  /-- TENTATIVE_HORIZON (R101). -/
  | tentativeHorizon (pin : DevPin) (time : W64)
  /-- NOP (R147). -/
  | nop (i : Iss)
  /-- TRAP (R147). -/
  | trap (i : Iss)
  /-- FENCE (R125). -/
  | fence (i : Iss)
  /-- WAIT (R129). -/
  | wait (i : Iss) (tk : Bool) (ev : Bool)
  /-- RETC (R69). -/
  | retc (i : Iss)
  /-- RETD (R92). -/
  | retd (i : Iss)
  /-- RET (R147). -/
  | ret (i : Iss)
  /-- ENDL (R147). -/
  | endl (i : Iss)
  /-- CALL (R147). -/
  | call (i : Iss) (rel : BitVec 24)
  /-- CALL_REG (R147). -/
  | callReg (i : Iss) (dn : Dreg)
  /-- JMP (R147). -/
  | jmp (i : Iss) (rel : BitVec 24)
  /-- JMP_REG (R147). -/
  | jmpReg (i : Iss) (dn : Dreg)
  /-- LOOP (R159). -/
  | loop (i : Iss) (cnt : Word) (len : Word)
  /-- LOOPD (R159). -/
  | loopd (i : Iss) (dk : Dreg) (len : Word)
  /-- BCC (R148). -/
  | bcc (i : Iss) (cc : BitVec 4) (disp : BrDisp)
  /-- MOV (R149). -/
  | mov (i : Iss) (dn : Dreg) (s : AluSrc)
  /-- ADD (R149). -/
  | add (i : Iss) (dn : Dreg) (s : AluSrc)
  /-- ADC (R149). -/
  | adc (i : Iss) (dn : Dreg) (s : AluSrc)
  /-- SUB (R149). -/
  | sub (i : Iss) (dn : Dreg) (s : AluSrc)
  /-- SBC (R149). -/
  | sbc (i : Iss) (dn : Dreg) (s : AluSrc)
  /-- CMP (R149). -/
  | cmp (i : Iss) (dn : Dreg) (s : AluSrc)
  /-- AND (R149). -/
  | and (i : Iss) (dn : Dreg) (s : AluSrc)
  /-- OR (R149). -/
  | or (i : Iss) (dn : Dreg) (s : AluSrc)
  /-- XOR (R149). -/
  | xor (i : Iss) (dn : Dreg) (s : AluSrc)
  /-- TST (R149). -/
  | tst (i : Iss) (dn : Dreg) (s : AluSrc)
  /-- NEG (R149). -/
  | neg (i : Iss) (dn : Dreg) (dm : Dreg)
  /-- NOT (R149). -/
  | not (i : Iss) (dn : Dreg) (dm : Dreg)
  /-- SHL (R149). -/
  | shl (i : Iss) (dn : Dreg) (s : AluSrc)
  /-- SHR (R149). -/
  | shr (i : Iss) (dn : Dreg) (s : AluSrc)
  /-- SAR (R149). -/
  | sar (i : Iss) (dn : Dreg) (s : AluSrc)
  /-- ROL (R149). -/
  | rol (i : Iss) (dn : Dreg) (s : AluSrc)
  /-- LD (R150). -/
  | ld (i : Iss) (xr : Xr) (ea : EA)
  /-- ST (R150). -/
  | st (i : Iss) (ea : EA) (xr : Xr)
  /-- LEA (R150). -/
  | lea (i : Iss) (an : Areg) (ea : EA)
  /-- PUSH (R116). -/
  | push (i : Iss) (xr : Xr)
  /-- POP (R116). -/
  | pop (i : Iss) (xr : Xr)
  /-- LDE (R150). -/
  | lde (i : Iss) (ek : Ereg) (ea : EA)
  /-- STE (R150). -/
  | ste (i : Iss) (ea : EA) (ek : Ereg)
  /-- MOVX (R150). -/
  | movx (i : Iss) (xd : Xr) (xs : Xr)
  /-- MOVXI (R150). -/
  | movxi (i : Iss) (xd : Xr) (imm : Word)
  /-- ADDA (R150). -/
  | adda (i : Iss) (an : Areg) (s : AddaSrc)
  /-- EXT (R150). -/
  | ext (i : Iss) (dn : Dreg)
  /-- SWPB (R150). -/
  | swpb (i : Iss) (dn : Dreg)
  /-- MOVE (R150). -/
  | move (i : Iss) (esrc : EA) (edst : EA)
  /-- MULU (R167). -/
  | mulu (i : Iss) (dn : Dreg) (dm : Dreg)
  /-- MULS (R167). -/
  | muls (i : Iss) (dn : Dreg) (dm : Dreg)
  /-- PRODUCT_LANDING (R128). -/
  | productLanding (sub : Sub) (wide : Bool)
  /-- DIVU (R169). -/
  | divu (i : Iss) (dn : Dreg) (dm : Dreg)
  /-- DIVS (R169). -/
  | divs (i : Iss) (dn : Dreg) (dm : Dreg)
  /-- DIVIDE_COMPLETE (R171). -/
  | divideComplete (sub : Sub)
  /-- DADD (R181). -/
  | dadd (i : Iss) (an : Areg) (am : Areg) (n : BitVec 5)
  /-- DSUB (R181). -/
  | dsub (i : Iss) (an : Areg) (am : Areg) (n : BitVec 5)
  /-- FADD (R172). -/
  | fadd (i : Iss) (ed : Ereg) (ea : Ereg) (eb : Ereg)
  /-- FSUB (R172). -/
  | fsub (i : Iss) (ed : Ereg) (ea : Ereg) (eb : Ereg)
  /-- FMUL (R172). -/
  | fmul (i : Iss) (ed : Ereg) (ea : Ereg) (eb : Ereg)
  /-- FMA (R172). -/
  | fma (i : Iss) (ed : Ereg) (ea : Ereg) (eb : Ereg) (ec : Ereg)
  /-- FNMA (R172). -/
  | fnma (i : Iss) (ed : Ereg) (ea : Ereg) (eb : Ereg) (ec : Ereg)
  /-- FDIV (R175). -/
  | fdiv (i : Iss) (ed : Ereg) (ea : Ereg) (eb : Ereg)
  /-- FSQRT (R175). -/
  | fsqrt (i : Iss) (ed : Ereg) (ea : Ereg)
  /-- FMIN (R177). -/
  | fmin (i : Iss) (ed : Ereg) (ea : Ereg) (eb : Ereg)
  /-- FMAX (R177). -/
  | fmax (i : Iss) (ed : Ereg) (ea : Ereg) (eb : Ereg)
  /-- FCMP (R177). -/
  | fcmp (i : Iss) (ea : Ereg) (eb : Ereg)
  /-- FNEG (R174). -/
  | fneg (i : Iss) (ed : Ereg) (ea : Ereg)
  /-- FABS (R174). -/
  | fabs (i : Iss) (ed : Ereg) (ea : Ereg)
  /-- FCVT (R179). -/
  | fcvt (i : Iss) (ed : Ereg) (ea : Ereg) (kind : BitVec 4)
  /-- FMOV (R174). -/
  | fmov (i : Iss) (ed : Ereg) (ea : Ereg)
  /-- FLOAT_RESULT_COMPLETE (R175). -/
  | floatResultComplete (sub : Sub) (ed : Ereg)
  /-- MOVED (R153). -/
  | moved (i : Iss) (dir : Bool) (ek : Ereg) (g : BitVec 2)
  /-- LDIE (R153). -/
  | ldie (i : Iss) (ek : Ereg) (imm : W64)
  /-- EADD (R153). -/
  | eadd (i : Iss) (ed : Ereg) (ea : Ereg) (eb : Ereg)
  /-- ESUB (R153). -/
  | esub (i : Iss) (ed : Ereg) (ea : Ereg) (eb : Ereg)
  /-- ECMP (R153). -/
  | ecmp (i : Iss) (ea : Ereg) (eb : Ereg)
  /-- ESHL (R153). -/
  | eshl (i : Iss) (ed : Ereg) (ea : Ereg) (n : BitVec 6)
  /-- ESHR (R153). -/
  | eshr (i : Iss) (ed : Ereg) (ea : Ereg) (n : BitVec 6)
  /-- ESAR (R153). -/
  | esar (i : Iss) (ed : Ereg) (ea : Ereg) (n : BitVec 6)
  /-- MOVPE (R153). -/
  | movpe (i : Iss) (ek : Ereg)
  /-- FPOP (R198). -/
  | fpop (i : Iss) (dn : Dreg) (dg : Dreg) (f : BitVec 2)
  /-- FPUSH (R198). -/
  | fpush (i : Iss) (dg : Dreg) (f : BitVec 2) (dn : Dreg) (eop : Bool) (odd : Bool)
  /-- FPOPS (R154). -/
  | fpops (i : Iss) (an : Areg) (dg : Dreg) (f : BitVec 2)
  /-- FPUSHS (R154). -/
  | fpushs (i : Iss) (dg : Dreg) (f : BitVec 2) (an : Areg) (eop : Bool) (odd : Bool)
  /-- FIFO_POP_COMPLETE (R198). -/
  | fifoPopComplete (sub : Sub)
  /-- FIRE (R191). -/
  | fire (i : Iss) (dp : Dreg) (ek : Ereg) (act : BitVec 2)
  /-- PINW (R194). -/
  | pinw (i : Iss) (dp : Dreg) (act : BitVec 2)
  /-- PINR (R194). -/
  | pinr (i : Iss) (dn : Dreg) (dp : Dreg)
  /-- PINTS (R194). -/
  | pints (i : Iss) (ek : Ereg) (dp : Dreg)
  /-- FILLS (R155). -/
  | fills (i : Iss) (an : Areg) (dk : Dreg)
  /-- SCANS (R155). -/
  | scans (i : Iss) (an : Areg) (dk : Dreg)
  /-- BSET (R156). -/
  | bset (i : Iss) (dn : Dreg) (b : BitVec 4)
  /-- BCLR (R156). -/
  | bclr (i : Iss) (dn : Dreg) (b : BitVec 4)
  /-- BTST (R156). -/
  | btst (i : Iss) (dn : Dreg) (b : BitVec 4)
  /-- BCHG (R156). -/
  | bchg (i : Iss) (dn : Dreg) (b : BitVec 4)
  /-- BFX (R156). -/
  | bfx (i : Iss) (dn : Dreg) (dm : Dreg) (pos : BitVec 4) (wid1 : BitVec 4)
  /-- BFI (R156). -/
  | bfi (i : Iss) (dn : Dreg) (dm : Dreg) (pos : BitVec 4) (wid1 : BitVec 4)
  /-- XCHG (R156). -/
  | xchg (i : Iss) (dn : Dreg) (ea : EA)
  /-- ADDM (R156). -/
  | addm (i : Iss) (ea : EA) (dn : Dreg)
  /-- ANDM (R156). -/
  | andm (i : Iss) (ea : EA) (dn : Dreg)
  /-- ORM (R156). -/
  | orm (i : Iss) (ea : EA) (dn : Dreg)
  /-- CAS (R156). -/
  | cas (i : Iss) (ea : EA) (dn : Dreg) (dm : Dreg)
  /-- LOAD_DATA_RETURN (R122). -/
  | loadDataReturn (sub : Sub) (err : BitVec 3)
  /-- STORE_ACK (R124). -/
  | storeAck (sub : Sub) (edc : BitVec 2)
  /-- ICACHE_LINE_FILL (R121). -/
  | icacheLineFill (stk : StokerNo) (addr : BitVec 24) (way : BitVec 2) (par : Bool)
  /-- IC_INV (R121). -/
  | icInv (src : Src) (stk : StokerNo) (val : Word)
  /-- CODEMAP_WRITE (R121). -/
  | codemapWrite (src : Src) (stk : StokerNo) (ofs : BitVec 5) (val : Word)
  /-- IC_PRELOAD (R121). -/
  | icPreload (src : Src) (stk : StokerNo) (val : Word)
  /-- EVNUM_READ (R131). -/
  | evnumRead (src : Src) (stk : StokerNo)
  /-- EVDONE_WRITE (R132). -/
  | evdoneWrite (src : Src) (stk : StokerNo) (val : Word)
  /-- CTX_STATE_WRITE (R135). -/
  | ctxStateWrite (src : Src) (sub : Sub) (ofs : BitVec 7) (val : Word)
  /-- DEBUG_STOP (R137). -/
  | debugStop (src : Src) (sub : Sub) (stop : Bool)
  /-- DEBUG_STEP (R137). -/
  | debugStep (src : Src) (sub : Sub) (stop : Bool)
  /-- STK_HOLD_WRITE (R341). -/
  | stkHoldWrite (src : Src) (stk : StokerNo) (val : Word)
  /-- GRATE_OWNER_REQUEST (R185). -/
  | grateOwnerRequest (src : Src) (g : GrateNo) (val : Word)
  /-- PIN_EDGE_ACCEPTED (R186). -/
  | pinEdgeAccepted (pin : DevPin) (ball : BallIn) (stamp : W64) (held : BitVec 9)
  /-- FIRE_ARRIVAL (R191). -/
  | fireArrival (pin : DevPin) (arrival : W64)
  /-- FIRE_QUEUE_FIRE (R190). -/
  | fireQueueFire (pin : DevPin)
  /-- PIN_WRITE_EFFECT (R194). -/
  | pinWriteEffect (pin : DevPin)
  /-- PIN_READBACK_CHECK (R339). -/
  | pinReadbackCheck (pin : DevPin) (ball : Bool)
  /-- FIFO_PUSH_ARRIVAL (R198). -/
  | fifoPushArrival (sub : Sub)
  /-- FIFO_FLUSH (R200). -/
  | fifoFlush (src : Src) (fifo : FifoId)
  /-- FIFO_DROP (R201). -/
  | fifoDrop (src : Src) (fifo : FifoId)
  /-- SEQ_KICK (R204). -/
  | seqKick (src : Src) (g : GrateNo) (entry : Byte)
  /-- SEQ_STOP (R204). -/
  | seqStop (src : Src) (g : GrateNo)
  /-- SQ_UW_WRITE (R205). -/
  | sqUwWrite (src : Src) (g : GrateNo) (ofs : BitVec 10) (val : Word)
  /-- SQ_BT0_WRITE (R208). -/
  | sqBt0Write (src : Src) (g : GrateNo) (val : Word)
  /-- SQ_BT1_WRITE (R208). -/
  | sqBt1Write (src : Src) (g : GrateNo) (val : Word)
  /-- SEQ_NOP (R206). -/
  | seqNop (g : GrateNo) (u : Micro)
  /-- DRV (R206). -/
  | drv (g : GrateNo) (u : Micro)
  /-- DRVM (R206). -/
  | drvm (g : GrateNo) (u : Micro)
  /-- OEM (R206). -/
  | oem (g : GrateNo) (u : Micro)
  /-- SMP (R206). -/
  | smp (g : GrateNo) (u : Micro)
  /-- SEQ_WAIT (R206). -/
  | seqWait (g : GrateNo) (u : Micro)
  /-- WEDGE (R206). -/
  | wedge (g : GrateNo) (u : Micro)
  /-- WLVL (R206). -/
  | wlvl (g : GrateNo) (u : Micro)
  /-- SEQ_HOLD_END (R203). -/
  | seqHoldEnd (g : GrateNo) (pc : Byte) (timeout : Bool) (stamp : W64)
  /-- LDI (R206). -/
  | ldi (g : GrateNo) (u : Micro)
  /-- SEQ_MOV (R206). -/
  | seqMov (g : GrateNo) (u : Micro)
  /-- ADDI (R206). -/
  | addi (g : GrateNo) (u : Micro)
  /-- ANDI (R206). -/
  | andi (g : GrateNo) (u : Micro)
  /-- ORI (R206). -/
  | ori (g : GrateNo) (u : Micro)
  /-- XORI (R206). -/
  | xori (g : GrateNo) (u : Micro)
  /-- CMPI (R206). -/
  | cmpi (g : GrateNo) (u : Micro)
  /-- SHK (R206). -/
  | shk (g : GrateNo) (u : Micro)
  /-- SEQ_POP (R199). -/
  | seqPop (g : GrateNo) (u : Micro)
  /-- SEQ_PUSH (R199). -/
  | seqPush (g : GrateNo) (u : Micro)
  /-- CHO (R208). -/
  | cho (g : GrateNo) (u : Micro)
  /-- CHI (R208). -/
  | chi (g : GrateNo) (u : Micro)
  /-- SHO (R206). -/
  | sho (g : GrateNo) (u : Micro)
  /-- SHI (R206). -/
  | shi (g : GrateNo) (u : Micro)
  /-- BR (R206). -/
  | br (g : GrateNo) (u : Micro)
  /-- SEQ_CALL (R206). -/
  | seqCall (g : GrateNo) (u : Micro)
  /-- SEQ_RET (R206). -/
  | seqRet (g : GrateNo) (u : Micro)
  /-- DJNZ (R206). -/
  | djnz (g : GrateNo) (u : Micro)
  /-- SEQ_POST (R209). -/
  | seqPost (g : GrateNo) (u : Micro)
  /-- EVT (R206). -/
  | evt (g : GrateNo) (u : Micro)
  /-- CRC (R206). -/
  | crc (g : GrateNo) (u : Micro)
  /-- FQW (R206). -/
  | fqw (g : GrateNo) (u : Micro)
  /-- WTICK (R206). -/
  | wtick (g : GrateNo) (u : Micro)
  /-- CLRF (R206). -/
  | clrf (g : GrateNo) (u : Micro)
  /-- SEQ_HALT (R206). -/
  | seqHalt (g : GrateNo) (u : Micro)
  /-- BANK_SUPPLY_MISMATCH (R196). -/
  | bankSupplyMismatch (m : BankSupply)
  /-- DAMPER_RULE_TRIP (R217). -/
  | damperRuleTrip (r : RuleNo) (stamp : W64)
  /-- RULE_CONDITION_FALSE (R217). -/
  | ruleConditionFalse (r : RuleNo)
  /-- RULE_ARM (R220). -/
  | ruleArm (src : Src) (r : RuleNo) (val : Word)
  /-- RULE_DISARM (R221). -/
  | ruleDisarm (src : Src) (r : RuleNo) (val : Word)
  /-- RULE_WRITE_EFFECT (R220). -/
  | ruleWriteEffect (r : RuleNo)
  /-- RULE_RELEASE_REQUEST (R221). -/
  | ruleReleaseRequest (src : Src) (r : RuleNo)
  /-- RULE_RELEASE_EFFECT (R221). -/
  | ruleReleaseEffect (r : RuleNo)
  /-- DAMPER_LOCK (R222). -/
  | damperLock (src : Src)
  /-- RULE_PARITY_ERROR (R223). -/
  | ruleParityError (r : RuleNo)
  /-- SAFE_N_ASSERTED (R224). -/
  | safeNAsserted
  /-- TIMEBASE_LOSS (R226). -/
  | timebaseLoss
  /-- SAFE_CLEAR (R344). -/
  | safeClear (src : Src) (val : Word)
  /-- SRAM_CORRECTION_WRITEBACK (R234). -/
  | sramCorrectionWriteback (addr : W32)
  /-- SCRUB_PATROL (R234). -/
  | scrubPatrol (addr : W32) (err : BitVec 2)
  /-- BUS_ERROR_TIMEOUT (R236). -/
  | busErrorTimeout (req : BusReq)
  /-- FABRIC_LATE_ANSWER (R236). -/
  | fabricLateAnswer (h : HearthNo)
  /-- GDDR6_RETRAIN_STEP (R238). -/
  | gddr6RetrainStep (dev : BitVec 2) (ok : Bool)
  /-- GDDR6_REFRESH (R241). -/
  | gddr6Refresh
  /-- DRAUGHT_START (R245). -/
  | draughtStart (src : Src) (f : FireboxNo) (n : BitVec 4)
  /-- DRAUGHT_STOP (R251). -/
  | draughtStop (src : Src) (f : FireboxNo) (n : BitVec 4)
  /-- DRAUGHT_RESUME (R252). -/
  | draughtResume (src : Src) (f : FireboxNo) (n : BitVec 4)
  /-- DRAUGHT_BIND (R249). -/
  | draughtBind (src : Src) (f : FireboxNo) (n : BitVec 4) (val : Word)
  /-- DESCRIPTOR_FETCH (R245). -/
  | descriptorFetch (f : FireboxNo) (e : ChanEnd)
  /-- BURST_RESERVATION (R247). -/
  | burstReservation (f : FireboxNo) (n : BitVec 4)
  /-- BURST_COMPLETE (R248). -/
  | burstComplete (f : FireboxNo) (e : ChanEnd)
  /-- LANE_MODE_WRITE (R255). -/
  | laneModeWrite (src : Src) (l : LaneNo) (val : Word)
  /-- QD_RATE_WRITE (R254). -/
  | qdRateWrite (src : Src) (q : QuadNo) (val : Word)
  /-- LANE_OWNER_REQUEST (R256). -/
  | laneOwnerRequest (src : Src) (l : LaneNo) (val : Word)
  /-- LANE_FRAME_RECEIVED (R259). -/
  | laneFrameReceived (l : LaneNo) (fr : RxFrame)
  /-- LANE_FRAME_TRANSMIT_START (R260). -/
  | laneFrameTransmitStart (x : FrameStart)
  /-- LANE_FRAME_TRANSMIT_END (R263). -/
  | laneFrameTransmitEnd (l : LaneNo) (underrun : Bool) (stamp : W64)
  /-- LANE_LINK_CHANGE (R261). -/
  | laneLinkChange (l : LaneNo) (x : LinkNow)
  /-- LANE_AN_COMPLETE (R265). -/
  | laneAnComplete (l : LaneNo) (res : BitVec 3) (fec : BitVec 2)
  /-- LANE_STATUS_ARM (R263). -/
  | laneStatusArm (src : Src) (l : LaneNo) (val : Word)
  /-- PCIE_READ_REQUEST (R269). -/
  | pcieReadRequest (bar : BitVec 2) (ofs : W32) (n : Byte)
  /-- PCIE_WRITE_REQUEST (R270). -/
  | pcieWriteRequest (bar : BitVec 2) (ofs : W32) (data : List (Word × BitVec 2))
  /-- PCIE_UNSUPPORTED_REQUEST (R266). -/
  | pcieUnsupportedRequest
  /-- FUNCTION_LEVEL_RESET (R267). -/
  | functionLevelReset
  /-- BULK_LINK_DOWN (R267). -/
  | bulkLinkDown
  /-- BULK_RETRAIN (R266). -/
  | bulkRetrain (src : Src) (val : Word)
  /-- FLUE_PORT_ENABLE (R272). -/
  | fluePortEnable (src : Src) (p : PortNo) (val : Word)
  /-- FLUE_BRINGUP_COMPLETE (R272). -/
  | flueBringupComplete (p : PortNo) (nbr : DevNo) (locked : BitVec 4) (far : BitVec 4)
  /-- FLUE_BRINGUP_TIMEOUT (R272). -/
  | flueBringupTimeout (p : PortNo)
  /-- FLUE_RETRAIN (R277). -/
  | flueRetrain (src : Src) (p : PortNo)
  /-- FLUE_RESTORE (R278). -/
  | flueRestore (src : Src) (p : PortNo)
  /-- DEVNUM_WRITE (R273). -/
  | devnumWrite (src : Src) (val : Word)
  /-- RDREQ (R283). -/
  | rdreq (p : PortNo) (pkt : Packet)
  /-- WRREQ (R283). -/
  | wrreq (p : PortNo) (pkt : Packet)
  /-- ATREQ (R282). -/
  | atreq (p : PortNo) (pkt : Packet)
  /-- OPREQ (R284). -/
  | opreq (p : PortNo) (pkt : Packet)
  /-- RDCPL (R282). -/
  | rdcpl (p : PortNo) (pkt : Packet)
  /-- WRCPL (R282). -/
  | wrcpl (p : PortNo) (pkt : Packet)
  /-- ATCPL (R282). -/
  | atcpl (p : PortNo) (pkt : Packet)
  /-- OPCPL (R285). -/
  | opcpl (p : PortNo) (pkt : Packet)
  /-- FLUE_ACK (R276). -/
  | flueAck (p : PortNo) (seq : BitVec 12) (reqCr : BitVec 6) (cplCr : BitVec 6)
  /-- FLUE_NAK (R277). -/
  | flueNak (p : PortNo) (seq : BitVec 12)
  /-- FLUE_REPLAY_TIMEOUT (R277). -/
  | flueReplayTimeout (p : PortNo)
  /-- FLUE_NEIGHBOUR_HUNG (R289). -/
  | flueNeighbourHung (p : PortNo)
  /-- FLUE_TIME_EXCHANGE (R286). -/
  | flueTimeExchange (p : PortNo) (x : TimeTry)
  /-- FLUE_TIME_BLOCK (R286). -/
  | flueTimeBlock (p : PortNo) (t1 : W64) (t2 : W64) (t3 : W64) (t4 : W64)
  /-- REMOTE_OPERATION_ISSUE (R285). -/
  | remoteOperationIssue (src : Src) (op : BitVec 4) (dev : DevNo) (addr : W32) (parm : Word) (narrow : Bool)
  /-- REMOTE_OPERATION_TIMEOUT (R285). -/
  | remoteOperationTimeout (src : Src)
  /-- FLUE_ISOLATE (R290). -/
  | flueIsolate (src : Src) (val : Word)
  /-- EVENT_SOURCE_EDGE (R293). -/
  | eventSourceEdge (h : HearthNo) (n : EvNo)
  /-- EVENT_SOURCE_LEVEL_CHANGE (R293). -/
  | eventSourceLevelChange (h : HearthNo) (n : EvNo) (asserted : Bool)
  /-- EVENT_EVALUATION (R294). -/
  | eventEvaluation (h : HearthNo)
  /-- EVENT_CLAIM_ARRIVAL (R295). -/
  | eventClaimArrival (stk : StokerNo)
  /-- EVENT_DONE_ARRIVAL (R296). -/
  | eventDoneArrival (stk : StokerNo)
  /-- EVC_PEND_CLEAR (R293). -/
  | evcPendClear (src : Src) (h : HearthNo) (w : BitVec 6) (val : Word)
  /-- EVC_SWSET (R291). -/
  | evcSwset (src : Src) (h : HearthNo) (val : Word)
  /-- EVC_SLOT_WRITE (R292). -/
  | evcSlotWrite (src : Src) (h : HearthNo) (lane : Bool) (k : BitVec 5) (val : Word)
  /-- ORPHAN_TIMEOUT (R298). -/
  | orphanTimeout (h : HearthNo) (n : EvNo)
  /-- HOST_EVENT_EVALUATION (R303). -/
  | hostEventEvaluation
  /-- HEV_CLAIM_READ (R302). -/
  | hevClaimRead (src : Src)
  /-- HEV_DONE_WRITE (R302). -/
  | hevDoneWrite (src : Src) (val : Word)
  /-- HEV_SWSET (R300). -/
  | hevSwset (src : Src) (val : Word)
  /-- HEV_PEND_CLEAR (R300). -/
  | hevPendClear (src : Src) (w : BitVec 4) (val : Word)
  /-- IBI_ACK (R303). -/
  | ibiAck
  /-- IBI_NACK (R304). -/
  | ibiNack
  /-- IBI_RETRY_EXPIRY (R304). -/
  | ibiRetryExpiry
  /-- WIN_READ (R313). -/
  | winRead (count : Byte) (addr : W32) (tag : Word)
  /-- WIN_WRITE (R313). -/
  | winWrite (count : Byte) (addr : W32) (tag : Word) (data : List Word)
  /-- WIN_STATUS (R313). -/
  | winStatus (count : Byte) (addr : W32) (tag : Word)
  /-- WIN_EVENT_CLAIM (R313). -/
  | winEventClaim (count : Byte) (addr : W32) (tag : Word)
  /-- WIN_EVENT_DONE (R313). -/
  | winEventDone (count : Byte) (addr : W32) (tag : Word)
  /-- WIN_QUOTE (R313). -/
  | winQuote (count : Byte) (addr : W32) (tag : Word) (data : List Word)
  /-- WIN_PING (R313). -/
  | winPing (count : Byte) (addr : W32) (tag : Word)
  /-- WINDOW_REQUEST_REJECTED (R313). -/
  | windowRequestRejected (code : Byte) (op : Byte) (count : Byte) (addr : W32) (tag : Word) (dataLen : Byte) (ok : FrameChecks)
  /-- RESPONSE_READ (R314). -/
  | responseRead
  /-- ENEC (R308). -/
  | enec (tint : Bool) (hj : Bool)
  /-- DISEC (R308). -/
  | disec (tint : Bool) (hj : Bool)
  /-- RSTDAA (R308). -/
  | rstdaa
  /-- ENTDAA (R308). -/
  | entdaa (da : BitVec 7)
  /-- SETDASA (R308). -/
  | setdasa (sa : BitVec 7) (da : BitVec 7)
  /-- SETNEWDA (R308). -/
  | setnewda (da : BitVec 7)
  /-- SETMWL (R308). -/
  | setmwl (val : Word)
  /-- SETMRL (R308). -/
  | setmrl (val : Word)
  /-- GETMWL (R308). -/
  | getmwl
  /-- GETMRL (R308). -/
  | getmrl
  /-- GETPID (R307). -/
  | getpid
  /-- GETBCR (R307). -/
  | getbcr
  /-- GETDCR (R307). -/
  | getdcr
  /-- GETSTATUS (R308). -/
  | getstatus
  /-- GETCAPS (R308). -/
  | getcaps
  /-- ENTHDR0 (R308). -/
  | enthdr0
  /-- HDR_EXIT (R306). -/
  | hdrExit
  /-- RSTACT (R308). -/
  | rstact (form : CccForm) (db : Byte)
  /-- HOT_JOIN_REQUEST (R309). -/
  | hotJoinRequest
  /-- WQ_ENABLE (R316). -/
  | wqEnable (src : Src) (n : QueueNo) (val : Word)
  /-- WQ_INIT_COMPLETE (R316). -/
  | wqInitComplete (n : QueueNo)
  /-- WQ_DISABLE (R316). -/
  | wqDisable (src : Src) (n : QueueNo) (val : Word)
  /-- WQ_POLL (R319). -/
  | wqPoll (n : QueueNo)
  /-- WQ_POKE (R319). -/
  | wqPoke (src : Src) (n : QueueNo) (val : Word)
  /-- WQ_INVAL (R320). -/
  | wqInval (src : Src) (n : QueueNo) (val : Word)
  /-- WQ_ENTRY_APPLY (R322). -/
  | wqEntryApply (n : QueueNo)
  /-- CQ_ENABLE (R324). -/
  | cqEnable (src : Src) (n : QueueNo) (val : Word)
  /-- CQ_POST (R325). -/
  | cqPost (n : QueueNo)
  /-- CQ_ACK (R327). -/
  | cqAck (src : Src) (n : QueueNo) (val : Word)
  /-- CQ_MODERATION_TIMEOUT (R327). -/
  | cqModerationTimeout (n : QueueNo)
  /-- FAULT_OCCURRENCE (R330). -/
  | faultOccurrence (blk : BlkNo) (i : BitVec 4) (unit : Word) (retryFailed : Bool)
  /-- FAULT_FORCE (R335). -/
  | faultForce (src : Src) (blk : BlkNo) (val : Word)
  /-- REACTION_TIMER_EXPIRY (R333). -/
  | reactionTimerExpiry (blk : BlkNo) (i : BitVec 4)
  /-- FAULT_ACKNOWLEDGE (R334). -/
  | faultAcknowledge (src : Src) (blk : BlkNo) (val : Word)
  /-- CLASS_WINDOW_CLOSE (R337). -/
  | classWindowClose (blk : BlkNo) (i : BitVec 4)
  /-- FAULT_PULSE_END (R345). -/
  | faultPulseEnd
  /-- FAULT_MIN_NS0_WRITE (R391). -/
  | faultMinNs0Write (src : Src) (val : Word)
  /-- FAULT_MIN_NS1_WRITE (R391). -/
  | faultMinNs1Write (src : Src) (val : Word)
  /-- UNIT_RESET_REQUEST (R341). -/
  | unitResetRequest (src : Src) (val : Word)
  /-- UNIT_RESET_END (R341). -/
  | unitResetEnd (scope : BitVec 3) (num : StokerNo)
  /-- RESET_SHADOW_END (R342). -/
  | resetShadowEnd (scope : BitVec 3) (num : StokerNo)
  /-- RETIREMENT_RETURN (R340). -/
  | retirementReturn (src : Src) (ofs : BitVec 7) (val : Word)
  /-- SOOT_ENTRY_WRITE (R347). -/
  | sootEntryWrite
  /-- SOOT_LOAD (R348). -/
  | sootLoad (src : Src) (val : Word)
  /-- SELF_TEST_REQUEST (R350). -/
  | selfTestRequest (src : Src) (val : Word)
  /-- SELF_TEST_STEP (R350). -/
  | selfTestStep
  /-- SELF_TEST_COMPLETE (R350). -/
  | selfTestComplete (pass : Bool)
  /-- RESET_ASSERT (R378). -/
  | resetAssert
  /-- RESET_RELEASE (R356). -/
  | resetRelease (bootsel : BitVec 2) (safeN : Bool)
  /-- TIMEBASE_PLL_LOCK (R21). -/
  | timebasePllLock
  /-- RAIL_UNDERVOLTAGE (R376). -/
  | railUndervoltage
  /-- VOLTAGE_MONITOR_SAMPLE (R384). -/
  | voltageMonitorSample (mv : List Word) (vio : List Word)
  /-- TEMPERATURE_SAMPLE (R383). -/
  | temperatureSample (temps : List Word)
  /-- BOOT_STAGE_COMPLETE (R357). -/
  | bootStageComplete (info : BootInfo)
  /-- BOOT_RECORD_READ (R358). -/
  | bootRecordRead (data : List Word)
  /-- BOOT_RESTART (R362). -/
  | bootRestart (src : Src)
  /-- BOOT_PUSH_MODE (R363). -/
  | bootPushMode (src : Src)
  /-- BOOT_PUSH_WORD (R363). -/
  | bootPushWord (src : Src) (val : Word)
  /-- EMBER_DATA_READ (R365). -/
  | emberDataRead (src : Src)
  /-- EMBER_DATA_WRITE (R365). -/
  | emberDataWrite (src : Src) (val : Word)
  /-- MRAM_WRITE_COMPLETE (R365). -/
  | mramWriteComplete
  /-- EMBER_SUPPLY_RETURN (R366). -/
  | emberSupplyReturn
  /-- QUOTE_START (R368). -/
  | quoteStart (src : Src) (val : Word)
  /-- QUOTE_DIGEST_COMPLETE (R369). -/
  | quoteDigestComplete
  /-- QUOTE_SIGN_COMPLETE (R369). -/
  | quoteSignComplete
  /-- IDCODE (R382). -/
  | idcode
  /-- SAMPLE_PRELOAD (R382). -/
  | samplePreload (chain : FMap Bool)
  /-- EXTEST (R382). -/
  | extest
  /-- CLAMP (R382). -/
  | clamp
  /-- HIGHZ (R382). -/
  | highz
  /-- FUSEKEY (R382). -/
  | fusekey (slot : BitVec 2) (hash : BitVec 256)
  /-- BYPASS (R382). -/
  | bypass (code : Byte)
  /-- TAP_RESET (R382). -/
  | tapReset
  /-- REGISTER_WRITE (R17). -/
  | registerWrite (src : Src) (addr : W32) (val : Word)
  /-- SCH_CUR_ADV_WRITE (R65). -/
  | schCurAdvWrite (src : Src) (sub : Sub) (val : Word)
  /-- ILLEGAL_INSTRUCTION (R163). -/
  | illegalInstruction (sub : Sub)
  /-- SAFE_N_RELEASE (R225). -/
  | safeNRelease
  /-- RAIL_RECOVERY (R376). -/
  | railRecovery
  /-- QUAD_PLL_LOCK (R377). -/
  | quadPllLock (q : QuadNo) (pll1 : Bool)
  /-- LANE_LOCK_CHANGE (R262). -/
  | laneLockChange (l : LaneNo) (lock : Bool)
  /-- BULK_LINK_UP (R266). -/
  | bulkLinkUp (width : BitVec 2) (gen : BitVec 2)
  /-- PCIE_CONFIG_REQUEST (R267). -/
  | pcieConfigRequest (wr : Bool) (field : CfgField) (val : Word)
  /-- FLUE_LINK_DOWN (R279). -/
  | flueLinkDown (p : PortNo)
  /-- FLUE_PACKET_REJECTED (R277). -/
  | fluePacketRejected (p : PortNo) (x : BadArrival)
  /-- FLUE_ACK_TIMER (R276). -/
  | flueAckTimer (p : PortNo)
deriving DecidableEq, Repr

end Sys2Proof
end

