-- ==== Sys2Proof/Decode.lean ====
section
/-! DEFINITION. Decoding by the bits of spec/opcode_table.json. No row of the table gives bits: the rows are commands,
named by what happens, and no word spells one. The encodings that the spec does give, of stoker instructions and of
sequencer microwords, are in Machine/Encode.lean. -/
namespace Sys2Proof

/-- The command that a word spells by the table's bits: none, since no row gives bits. -/
def decodeTableWord (_nbits _w : Nat) : Option Instr := none

end Sys2Proof
end

