-- ==== Sys2Proof/Machine/Maps.lean ====
section
/-! DEFINITION. Sparse maps (FMap): read with a default, write in canonical form; and bit fields of words. -/
namespace Sys2Proof.Machine
open Sys2Proof

/-- The value at key k, the default d where the map lists none. -/
def mget {α : Type} (d : α) (k : Nat) : FMap α → α
  | [] => d
  | (k', v) :: r => if k' = k then v else mget d k r

/-- The map with v at key k, entries in rising order. -/
def mput {α : Type} (k : Nat) (v : α) : FMap α → FMap α
  | [] => [(k, v)]
  | (k', v') :: r =>
    if k < k' then (k, v) :: (k', v') :: r
    else if k' = k then (k, v) :: r
    else (k', v') :: mput k v r

/-- The map without key k. -/
def merase {α : Type} (k : Nat) : FMap α → FMap α
  | [] => []
  | (k', v') :: r => if k' = k then merase k r else (k', v') :: merase k r

/-- Write v at key k; the default d of the key is not listed. -/
def mset {α : Type} [DecidableEq α] (d : α) (k : Nat) (v : α) (m : FMap α) : FMap α :=
  if v = d then merase k m else mput k v m

/-- Change the value at key k. -/
def mmod {α : Type} [DecidableEq α] (d : α) (k : Nat) (f : α → α) (m : FMap α) : FMap α :=
  mset d k (f (mget d k m)) m

/-- Keys strictly rise from a lower bound. -/
def keysAbove {α : Type} : Nat → FMap α → Bool
  | _, [] => true
  | lo, (k, _) :: r => decide (lo ≤ k) && keysAbove (k + 1) r

/-- No entry equals the default of its key. -/
def noDefault {α : Type} [DecidableEq α] (d : Nat → α) : FMap α → Bool
  | [] => true
  | (k, v) :: r => decide (v ≠ d k) && noDefault d r

/-- The canonical form of a map. -/
def mapWf {α : Type} [DecidableEq α] (d : Nat → α) (m : FMap α) : Bool :=
  keysAbove 0 m && noDefault d m

/-- Bits [hi:lo] of a value, as a number. -/
def fld {n : Nat} (w : BitVec n) (hi lo : Nat) : Nat := (w.toNat >>> lo) % 2 ^ (hi - lo + 1)

/-- Bit i of a value. -/
def bit {n : Nat} (w : BitVec n) (i : Nat) : Bool := w.getLsbD i

/-- The mask of bits [hi:lo]. -/
def maskOf (hi lo : Nat) : Word := BitVec.ofNat 16 ((2 ^ (hi - lo + 1) - 1) <<< lo)

/-- w with bits [hi:lo] replaced by v. -/
def setFld (w : Word) (hi lo v : Nat) : Word :=
  (w &&& ~~~(maskOf hi lo)) ||| (maskOf hi lo &&& BitVec.ofNat 16 (v <<< lo))

/-- w with bit i set or cleared. -/
def setBit (w : Word) (i : Nat) (b : Bool) : Word :=
  if b then w ||| BitVec.ofNat 16 (1 <<< i) else w &&& ~~~(BitVec.ofNat 16 (1 <<< i))

/-- A word from a number. -/
def wd (n : Nat) : Word := BitVec.ofNat 16 n

/-- A one-bit number. -/
def b2n (b : Bool) : Nat := if b then 1 else 0

/-- Word i (0 most significant) of an m-word value (R11). -/
def wordOf (m i v : Nat) : Word := wd (v >>> (16 * (m - 1 - i)))

/-- The m words of a value, most significant first (R11). -/
def wordsOf : Nat → Nat → List Word
  | 0, _ => []
  | m + 1, v => wd (v >>> (16 * m)) :: wordsOf m v

/-- The value of a run of words, most significant first (R11). -/
def valOf (ws : List Word) : Nat := ws.foldl (fun a w => a * 65536 + w.toNat) 0

/-- Two's complement of an integer in n bits, as a number. -/
def tc (n : Nat) (i : Int) : Nat := (i % (2 ^ n : Int)).toNat

/-- The signed value of an n-bit number. -/
def sx (n v : Nat) : Int := if v % 2 ^ n < 2 ^ (n - 1) then ((v % 2 ^ n : Nat) : Int) else ((v % 2 ^ n : Nat) : Int) - (2 ^ n : Int)

/-- The word i of a list, 0 where there is none. -/
def nth (ws : List Word) (i : Nat) : Word := ws.getD i 0

/-- The numbers from a to a + n − 1. -/
def span (a : Nat) : Nat → List Nat
  | 0 => []
  | n + 1 => a :: span (a + 1) n

end Sys2Proof.Machine
end

