-- ==== Sys2Proof/Config.lean ====
section
/-! DEFINITION. What an implementation fixes, and the free values: constants with no body, so that nothing about the
number behind one can be proved. Each is named in a row of the assumption log. -/
namespace Sys2Proof.Config

/-- The n-th free value the device produces where the spec fixes no value: GDDR6 words that nothing has written since
device reset (R240), an undriven pin's level (R186), a failed GDDR6 write burst (R239). Applied to State.free. -/
opaque freeWord : Nat → Word
/-- The 64-bit unique serial number in fuses (R2). -/
opaque serial : W64
/-- The silicon step: 0 A0, 1 A1, 2 B0 (R2, R382). -/
opaque step : BitVec 2
/-- The grade in fuses (R1, R2). -/
opaque grade : BitVec 2
/-- Basind Microsystems' MIPI manufacturer ID, 15 bits (R307). -/
opaque mipiId : BitVec 15
/-- Basind Microsystems' JEDEC manufacturer code, 11 bits (R382). -/
opaque jedecId : BitVec 11
/-- The PCI Express Vendor ID in fuses (R266). -/
opaque vendorId : Word
/-- Whether 7-bit address a is one that I3C reserves (R306, register I3C_SADDR). -/
opaque i3cReserved : BitVec 7 → Bool
/-- SHAKE256 with a 256-bit output over a byte string, as 16 words (FIPS 202; R354, R357, R369). -/
opaque shake256 : List Byte → List Word
/-- XMSS verification: public key words, message words, signature words (RFC 8391; R357). -/
opaque xmssVerify : List Word → List Word → List Word → Bool
/-- The XMSS OID of XMSS-SHAKE256_20_256 (NIST SP 800-208; R360). -/
opaque xmssOid : W32
/-- The XMSS^MT signature of a message under the device identity key with a given index, in words: index and the rest
of the 9,893 bytes packed under R10 (RFC 8391; R367, R370). -/
opaque xmssMtSign : List Word → BitVec 40 → List Word
/-- The device identity public key, 34 words (R367). -/
opaque idpk : Nat → Word
/-- The valid K characters of 8b/10b (R262): K28.0 to K28.7, K23.7, K27.7, K29.7 and K30.7. -/
def validK (b : Byte) : Bool :=
  [(0x1C : Byte), 0x3C, 0x5C, 0x7C, 0x9C, 0xBC, 0xDC, 0xFC, 0xF7, 0xFB, 0xFD, 0xFE].contains b
/-- The contents of ember MRAM as manufactured, word by word (R365): the device reset does not touch it. -/
opaque mram : Nat → Word
/-- The signing state in MRAM, by bottom tree (index / 1,024) and MRAM word (R365, R369). -/
opaque signState : Nat → Nat → Word
/-- The next index and the end of the reserved block that the ember domain kept before the first reset (R366). -/
opaque emberNext : Nat
/-- The end of the index block in use that the ember domain kept before the first reset (R366). -/
opaque emberResEnd : Nat

end Sys2Proof.Config
end

