-- ==== Sys2Proof/Machine/Regs.lean ====
section
/-! DEFINITION. The register maps: which blocks there are (R6), and for each block its writable fields, their access
codes (R16), legal values (R15), reset values, the configuration-class mark (R371) and the counters (R43). A register
that only hardware writes and that resets to 0 has no row: its value is kept under its address all the same. -/
namespace Sys2Proof.Machine
open Sys2Proof

/-- The register blocks (R6), with the unit number of a repeated block. -/
inductive Blk where
  | frm | hif | hev | boot | sec | ember | fc | mon | dbg | gddr | damper | bulk | ident
  | flue (p : Nat) | quad (q : Nat) | hearth (h : Nat) | die (d : Nat)
  | firebox (f : Nat) | draught (f : Nat) | grate (g : Nat) | stoker (s : Nat)
  | reserved
deriving DecidableEq, Repr

/-- The block of a block index (R6). -/
def blkOf (n : Nat) : Blk :=
  if n < 0xD then
    [.frm, .hif, .hev, .boot, .sec, .ember, .fc, .mon, .dbg, .gddr, .damper, .bulk, .ident].getD n .reserved
  else if n < 0x14 then .reserved
  else if n < 0x18 then .flue (n - 0x14)
  else if n < 0x20 then .quad (n - 0x18)
  else if n < 0x28 then .hearth (n - 0x20)
  else if n < 0x2C then .die (n - 0x28)
  else if n < 0x40 then .reserved
  else if n < 0x80 then .firebox (n - 0x40)
  else if n < 0xC0 then .draught (n - 0x80)
  else if n < 0x100 then .grate (n - 0xC0)
  else if n < 0x300 then .stoker (n - 0x100)
  else .reserved

/-- The block index of a block (R6). -/
def Blk.index : Blk → Nat
  | .frm => 0 | .hif => 1 | .hev => 2 | .boot => 3 | .sec => 4 | .ember => 5 | .fc => 6 | .mon => 7 | .dbg => 8
  | .gddr => 9 | .damper => 0xA | .bulk => 0xB | .ident => 0xC
  | .flue p => 0x14 + p | .quad q => 0x18 + q | .hearth h => 0x20 + h | .die d => 0x28 + d
  | .firebox f => 0x40 + f | .draught f => 0x80 + f | .grate g => 0xC0 + g | .stoker s => 0x100 + s
  | .reserved => 0xD

/-- Word address of register `ofs` of block index n (R6). -/
def ra (n ofs : Nat) : Nat := 0x20000000 + n * 0x10000 + ofs

/-- Access codes that change a bit by a write (R16). -/
inductive Acc where
  | rw | w1c | w1s
deriving DecidableEq, Repr

/-- A writable field [hi:lo] with its legal values mn to mx. -/
structure Fld where
  hi : Nat
  lo : Nat
  acc : Acc
  mn : Nat
  mx : Nat
deriving DecidableEq, Repr

/-- A register, or a rectangle of registers off + i × st1 + j × st2. -/
structure Row where
  off : Nat
  n1 : Nat := 1
  st1 : Nat := 1
  n2 : Nat := 1
  st2 : Nat := 1
  reset : Nat := 0
  cfg : Bool := false
  cnt : Bool := false
  flds : List Fld := []
deriving DecidableEq, Repr

/-- A writable field of any value. -/
def rw (hi lo : Nat) : Fld := ⟨hi, lo, .rw, 0, 65535⟩
/-- A writable field with a range of legal values. -/
def rng (hi lo mn mx : Nat) : Fld := ⟨hi, lo, .rw, mn, mx⟩
/-- A write-one-to-clear bit. -/
def w1c (b : Nat) : Fld := ⟨b, b, .w1c, 0, 1⟩
/-- A write-one-to-set bit. -/
def w1s (b : Nat) : Fld := ⟨b, b, .w1s, 0, 1⟩
/-- A whole writable word. -/
def full : List Fld := [rw 15 0]

/-- A configuration-class register. -/
def cfgR (off reset : Nat) (fs : List Fld) : Row := { off := off, reset := reset, cfg := true, flds := fs }
/-- An operational register. -/
def opR (off reset : Nat) (fs : List Fld) : Row := { off := off, reset := reset, flds := fs }
/-- k counters of two words each. -/
def cntR (off k : Nat) : Row := { off := off, n1 := 2 * k, cnt := true }
/-- The row repeated n times at a stride. -/
def Row.times (r : Row) (n st : Nat) : Row := { r with n1 := n, st1 := st }
/-- The row repeated in a second direction. -/
def Row.times2 (r : Row) (n st : Nat) : Row := { r with n2 := n, st2 := st }

/-- Whether the row holds offset o. -/
def Row.has (r : Row) (o : Nat) : Bool :=
  (span 0 r.n2).any fun j =>
    decide (r.off + j * r.st2 ≤ o) &&
    decide ((o - (r.off + j * r.st2)) % r.st1 = 0) && decide ((o - (r.off + j * r.st2)) / r.st1 < r.n1)

/-- The fault register set of a block with n sources (R329). -/
def fltRows (sources : List Nat) : List Row :=
  [opR 0x7000 0 [⟨15, 0, .w1c, 0, 65535⟩], opR 0x7001 0 [⟨15, 0, .w1c, 0, 65535⟩], opR 0x7002 0xFFFF full,
   opR 0x7003 0 full, cfgR 0x7005 0 [rw 0 0], cntR 0x7006 2]
  ++ sources.flatMap fun i =>
    [cfgR (0x7010 + 4 * i) 0 [rng 15 13 0 5, rng 12 10 0 5, rw 9 9], cfgR (0x7011 + 4 * i) 1000 full,
     opR (0x7012 + 4 * i) 0 [w1c 15]]

/-- The fault sources each block has, of *Table — fault sources* (R338). -/
def fltSources : Blk → List Nat
  | .frm => [0, 1, 2, 3]
  | .hif => [0, 1]
  | .hev => [0]
  | .boot => [0, 1]
  | .sec => [0]
  | .ember => [0, 1]
  | .fc => [0, 1]
  | .mon => [0, 1, 2]
  | .dbg => [0]
  | .gddr => [0, 1, 2, 3]
  | .damper => [0, 1]
  | .bulk => [0]
  | .flue p => if p = 0 then [0, 1, 2, 3, 4, 5] else [0, 1, 2, 3, 4]
  | .quad _ => [0, 1, 2, 4, 5, 6, 8, 9, 10, 12, 13, 14]
  | .hearth _ => [0, 1, 2, 3]
  | .die _ => [0, 1]
  | .firebox _ => [0, 1]
  | .draught _ => [0, 1]
  | .grate _ => [0, 1, 2, 3, 4, 5, 6]
  | .stoker _ => [0, 1, 2, 3]
  | _ => []

/-- Frame timer registers. -/
def frmRows : List Row :=
  [cfgR 0 0 [rw 1 0], opR 1 0 [w1c 7, w1c 6, w1c 5], cfgR 2 1 [rw 7 0], cfgR 3 0xE848 full,
   cfgR 4 0x100 [rw 15 3], cfgR 5 0x64 [rng 7 4 4 10, rw 2 2, rw 1 1, rw 0 0], cfgR 6 8 [rng 7 0 1 255],
   cfgR 7 0x1000 [rng 15 8 1 255, rw 1 1, rw 0 0], (opR 0x14 0 full).times 4 1, cntR 0x30 4]

/-- Host interface registers. -/
def hifRows : List Row :=
  [cfgR 0 3 [rw 1 1, rw 0 0], opR 1 0 [w1c 7, w1c 6], cfgR 2 0x5A [rw 6 0], cfgR 3 0 [rw 3 0], cntR 0x10 5,
   (cfgR 0x100 0x400 [rw 15 15, rng 12 8 4 16, rw 5 0]).times 64 16,
   (cfgR 0x101 0 full).times 64 16, (cfgR 0x102 0 full).times 64 16, (cfgR 0x103 0 [rw 7 0]).times 64 16,
   (cfgR 0x104 0x10 full).times 64 16, (opR 0x105 1 [rng 15 0 1 65535]).times 64 16,
   (opR 0x106 0 [w1c 14, w1c 12]).times 64 16, ((cntR 0x10A 3).times 6 1).times2 64 16,
   (cfgR 0x800 0x400 [rw 15 15, rw 14 14, rng 12 8 4 16]).times 64 16,
   (cfgR 0x801 0 full).times 64 16, (cfgR 0x802 0 full).times 64 16, (cfgR 0x803 1 [rng 7 0 1 255]).times 64 16,
   (cfgR 0x804 0 full).times 64 16, (opR 0x805 1 [rng 15 0 1 65535]).times 64 16,
   (opR 0x806 0 [w1c 12]).times 64 16, ((cntR 0x80A 2).times 4 1).times2 64 16]

/-- Host event controller registers. -/
def hevRows : List Row :=
  [cfgR 0 1 [rw 1 1, rw 0 0], opR 1 0 [w1c 7, w1c 6], cfgR 7 4 [rng 7 0 1 255],
   opR 0x10 0 [rw 14 0], (opR 0x11 0 full).times 15 1, cntR 0x40 3]

/-- Hearth registers: event controller, fabric and SRAM control. -/
def hearthRows : List Row :=
  [opR 0 0 [w1c 7], cfgR 4 64 [rng 6 0 0 64], (cfgR 0x20 0 [rw 15 15, rw 5 0]).times 32 1,
   (cfgR 0x40 0 [rw 15 15, rng 5 0 0 31]).times 16 1, opR 0x100 0 [rw 14 0], (opR 0x101 0 full).times 63 1,
   (opR 0x1C0 0 [⟨15, 0, .w1c, 0, 65535⟩]).times 64 1, cntR 0x400 6,
   cfgR 0x800 0x61 [rw 7 4, rw 0 0], opR 0x801 0 [w1c 7, w1c 1, w1c 0], cntR 0x810 4,
   (cfgR 0x1001 0 [rw 15 8, rng 6 0 0 64]).times 1023 1]

/-- Damper registers. -/
def damperRows : List Row :=
  [cfgR 0 0 [w1s 0], opR 1 0 [w1c 7, w1c 6, w1c 5, w1c 4, w1c 3, w1c 2, w1c 1], (cfgR 0x400 0 full).times 128 1,
   (cfgR 0x1000 0 [rw 15 7]).times 256 16, (cfgR 0x1001 0 [rw 15 14, rw 9 0]).times 256 16,
   (cfgR 0x1002 0 [rw 15 14, rw 9 0]).times 256 16, (cfgR 0x1003 0 [rw 5 0]).times 256 16,
   (cfgR 0x1004 0 full).times 256 16, ((cntR 0x1006 1).times 2 1).times2 256 16]

/-- Device fault control registers (R336 gives the class defaults). -/
def fcRows : List Row :=
  [opR 0 0 [rw 0 0], opR 1 0 [w1c 7, w1c 6, w1c 5], cfgR 2 0 full, cfgR 3 0x2710 full]
  ++ ([(255, 1), (1, 1000), (2, 1000), (255, 1), (2, 1000), (4, 100), (8, 1000), (4, 100), (1, 1000), (255, 1),
      (255, 1), (255, 1), (255, 1), (255, 1), (255, 1), (255, 1)].mapIdx fun k lw =>
        [cfgR (0x10 + 2 * k) lw.1 [rw 7 0], cfgR (0x11 + 2 * k) lw.2 [rng 15 0 1 65535]]).flatten
  ++ [opR 0x43 0 [rw 11 0], cntR 0x50 2]

/-- GDDR6 controller registers. -/
def gddrRows : List Row :=
  [cfgR 0 5 [rw 4 4, rw 2 2, rng 1 0 0 1], opR 1 0 [w1c 7, w1c 6], cfgR 2 0x4004 [rw 15 8, rw 3 0], cntR 0x10 4]

/-- Bulk port registers, the MSI-X table and the pending bits. -/
def bulkRows : List Row :=
  [cfgR 0 0xBC00 [rw 15 15, rw 13 12, rw 11 10], opR 1 0 [w1c 7, w1c 6, w1c 5, w1c 4], cfgR 2 0x1000 [rw 15 9],
   cfgR 4 0 full, cfgR 5 0 full, cntR 0x10 3, (opR 0x1000 0 full).times 520 1]

/-- Flue port registers; those above 0x0100 are in port 0 only. -/
def flueRows (p : Nat) : List Row :=
  [cfgR 0 8 [rw 15 15, rng 3 0 1 15], opR 1 0x0F00 [w1c 7, w1c 6, w1c 5, w1c 4], cfgR 3 10 [rng 7 0 1 255], cfgR 4 0 full,
   cntR 0x10 7]
  ++ (if p = 0 then
    [cfgR 0x100 0 [rw 15 10], opR 0x101 0 [w1c 7, w1c 6, w1c 5], cfgR 0x102 100 [rng 9 0 1 1000],
     (cfgR 0x200 0 [rw 15 15, rw 11 0]).times 64 2, (cfgR 0x201 0 [rw 15 8]).times 64 2,
     (cfgR 0x1000 0 [rw 15 9]).times 4096 1] else [])

/-- Chimney quad registers: the lane's FIFO request points run to 8,192 or 256 (R257). -/
def quadRows : List Row :=
  [opR 0 0 [w1c 7, w1c 6], cfgR 1 1250 [rng 15 0 1000 6250],
   (cfgR 0x100 0 [rw 15 3]).times 4 0x100, (cfgR 0x101 0x40 [rw 6 0]).times 4 0x100,
   (opR 0x102 0 [w1c 7, w1c 6, w1c 5, w1c 4]).times 4 0x100, (cfgR 0x104 1522 [rng 13 0 64 9600]).times 4 0x100,
   (cfgR 0x105 0 [rw 12 0]).times 4 0x100, (cfgR 0x106 0xFBFD full).times 4 0x100,
   (cfgR 0x110 1 [rng 13 0 0 8192]).times 4 0x100, (cfgR 0x114 1 [rng 13 0 0 256]).times 4 0x100,
   (cfgR 0x118 1 [rng 13 0 0 8192]).times 4 0x100, (cfgR 0x11C 1 [rng 13 0 0 256]).times 4 0x100,
   ((opR 0x111 0 [w1c 14]).times 4 0x100).times2 4 4,
   ((cntR 0x180 8).times 16 1).times2 4 0x100]

/-- Firebox registers. -/
def fireboxRows : List Row :=
  [cfgR 0 0x61 [rw 7 4, rw 0 0], opR 1 0 [w1c 7, w1c 1, w1c 0], cntR 0x10 2]

/-- Draught engine registers. -/
def draughtRows : List Row :=
  [opR 0 0 [w1c 7, w1c 6], cntR 0x10 2, (cfgR 0x100 0 [rw 15 13]).times 16 16, (opR 0x102 0 full).times 16 16,
   (opR 0x103 0 full).times 16 16, (opR 0x10B 0 [rw 15 15, rw 13 8, rw 1 0]).times 16 16]

/-- Grate registers. -/
def grateRows (g : Nat) : List Row :=
  [cfgR 0 g [rw 5 0], opR 1 0 [w1c 7, w1c 6, w1c 5], cfgR 2 4 [rng 2 0 0 4], cfgR 3 16 [rng 7 0 1 255],
   (cfgR 4 0 [rng 15 14 0 2, rw 13 13, rw 12 12, rw 11 11, rw 10 7, rw 6 3, rng 2 0 0 6]).times 4 1,
   opR 8 0 [w1c 15], cfgR 0x10 0 [rw 15 14, rw 13 13, rw 12 11, rw 10 6], (cfgR 0x11 0 [rw 15 14, rw 13 13, rw 12 11, rw 10 7]).times 15 1,
   (cfgR 0x20 0 full).times 16 1, (cfgR 0x200 1 [rng 8 0 0 256]).times 8 4, (opR 0x201 0 [w1c 14]).times 8 4,
   opR 0x303 0 [w1c 6, w1c 5, w1c 4, w1c 3, w1c 2], cfgR 0x306 0 full, cfgR 0x307 868 full,
   cfgR 0x308 8 [rw 15 12, rw 11 11, rw 10 10, rw 9 9, rw 8 8, rng 7 5 0 4, rng 3 0 5 9], cfgR 0x309 0x1021 full,
   cfgR 0x30A 0xFFFF full, (opR 0x310 0 full).times 8 1, cntR 0x400 6, cntR 0x420 16,
   ((cfgR 0x1000 0 full).times 256 4).times2 3 1]

/-- Stoker registers. -/
def stokerRows : List Row :=
  [cfgR 0 0 [rw 0 0], opR 1 0 [w1c 7, w1c 6, w1c 5], cfgR 2 0 [rw 3 0], opR 4 0 [rw 15 14, rw 7 0], cntR 8 4,
   cfgR 0x10 0 [rw 2 0], cfgR 0x11 0xFFFF full, cntR 0x12 1, (cfgR 0x100 0 full).times 16 2,
   (cfgR 0x101 0 [rw 15 10, rw 0 0]).times 16 2, (opR 0x301 0 [w1s 1, rw 0 0]).times 16 4,
   (opR 0x340 0 [w1c 15]).times 16 4, opR 0x400 0 [w1s 8], opR 0x401 0 [w1c 7, w1c 6, w1c 3], cfgR 0x402 0 full,
   cfgR 0x403 1 [rw 0 0], cntR 0x406 1, cfgR 0x408 0x1000 [rng 15 0 1 65535],
   (cfgR 0x500 0 [rw 15 15, rw 3 0]).times 64 4, ((cfgR 0x501 0 full).times 64 4).times2 3 1,
   (cfgR 0x601 0 [rw 2 0]).times 16 32, (cfgR 0x602 0 full).times 16 32, (cfgR 0x603 0 [rw 15 9]).times 16 32,
   (cfgR 0x604 0 [rw 5 0]).times 16 32, (cfgR 0x605 3 [rw 3 0]).times 16 32, (cfgR 0x606 0 [rw 7 0]).times 16 32,
   (cfgR 0x607 0x7D full).times 16 32, ((cfgR 0x608 0x4000 [rw 15 15, rw 13 13, rw 5 0]).times 16 32).times2 4 2,
   ((cfgR 0x609 0 full).times 16 32).times2 4 2, (cfgR 0x610 0 [rw 15 15, rw 12 0]).times 16 32,
   (opR 0x619 0 [w1c 0]).times 16 32, ((cntR 0x61A 3).times 6 1).times2 16 32,
   (opR 0x800 1 [rw 1 0]).times 16 16, (opR 0x803 0 [w1c 14]).times 16 16, ((cntR 0x804 6).times 12 1).times2 16 16,
   cfgR 0x900 0x47 [rng 6 4 1 4, rw 2 2, rw 1 1, rw 0 0], opR 0x901 0 [w1c 7]]

/-- The rows of a block without its fault registers. -/
def baseRows : Blk → List Row
  | .frm => frmRows
  | .hif => hifRows
  | .hev => hevRows
  | .boot => [opR 0 0 [w1c 7, w1c 6, w1c 5]]
  | .sec => [opR 0 0 [w1c 7], opR 3 0 [w1c 7]]
  | .ember => [opR 0 0 [w1c 7, w1c 6], opR 1 0 [rw 1 0], opR 2 0 full]
  | .fc => fcRows
  | .mon => []
  | .dbg => [cfgR 0x100 0x8000 full, cfgR 0x101 0 full, cfgR 0x102 16 [rng 4 0 12 26]]
  | .gddr => gddrRows
  | .damper => damperRows
  | .bulk => bulkRows
  | .ident => [opR 3 0 [rw 11 0]]
  | .flue p => flueRows p
  | .quad _ => quadRows
  | .hearth _ => hearthRows
  | .die _ => []
  | .firebox _ => fireboxRows
  | .draught _ => draughtRows
  | .grate g => grateRows g
  | .stoker _ => stokerRows
  | .reserved => []

/-- The first row of a list that holds an offset. -/
def findRow (rs : List Row) (o : Nat) : Option Row := rs.find? fun r => r.has o

/-- The row of register offset o of a block: only a block with fault sources has the fault register set (R8, R329). -/
def rowOf (b : Blk) (o : Nat) : Option Row :=
  if 0x7000 ≤ o && o < 0x7050 then (if fltSources b = [] then none else findRow (fltRows (fltSources b)) o)
  else findRow (baseRows b) o

/-- FLT_CFG after reset: LEVEL, MAXLVL and CLASS of *Table — fault sources* (R338). -/
def fltReset (b : Blk) (i : Nat) : Nat :=
  let c (cls lvl mx : Nat) : Nat := lvl * 8192 + mx * 1024 + cls * 16
  match b with
  | .frm => [c 1 5 5, c 0 0 2, c 0 2 2, c 12 0 2].getD i 0
  | .hif => [c 11 0 2, c 11 0 2].getD i 0
  | .hev => [c 11 0 2].getD i 0
  | .boot => [c 12 2 2, c 6 0 2].getD i 0
  | .sec => [c 8 2 2].getD i 0
  | .ember => [c 4 2 2, c 2 2 2].getD i 0
  | .fc => [c 12 0 2, c 8 2 2].getD i 0
  | .mon => [c 2 2 2, c 2 5 5, c 2 2 5].getD i 0
  | .dbg => [c 12 0 2].getD i 0
  | .gddr => [c 4 2 3, c 4 1 3, c 6 2 3, c 3 0 2].getD i 0
  | .damper => [c 10 2 2, c 8 2 2].getD i 0
  | .bulk => [c 6 2 2].getD i 0
  | .flue _ => [c 12 2 2, c 6 2 2, c 6 2 2, c 6 0 3, c 6 0 3, c 0 1 2].getD i 0
  | .quad _ => if i = 12 || i = 13 then c 1 2 3 else [c 0 0 2, c 6 1 3, c 6 0 3].getD (i % 4) 0
  | .hearth _ => [c 3 0 2, c 4 1 2, c 5 1 3, c 11 0 2].getD i 0
  | .die _ => [c 6 3 5, c 1 3 5].getD i 0
  | .firebox _ => [c 3 0 2, c 4 1 2].getD i 0
  | .draught _ => [c 5 1 3, c 4 1 2].getD i 0
  | .grate _ => [c 2 2 3, c 0 0 2, c 0 0 2, c 8 2 3, c 9 1 2, c 7 2 3, c 7 1 3].getD i 0
  | .stoker _ => [c 0 1 2, c 9 0 2, c 3 0 2, c 8 3 4].getD i 0
  | .ident | .reserved => 0

/-- The reset value of register offset o of a block. Values that differ within a rectangle of registers come first: the
class field of FLT_CFG (R338), a queue's ACQ (R316), the grate slots of a hearth (R292), I3C_INST (R307), the
identification block (R2), the mask bit of an MSI-X vector (PRESUMED: the PCI Express layout's own reset value). -/
def blkReset (b : Blk) (o : Nat) : Word :=
  if 0x7010 ≤ o && o < 0x7050 && o % 4 == 0 then
    (if (fltSources b).contains ((o - 0x7010) / 4) then wd (fltReset b ((o - 0x7010) / 4)) else 0)
  else match b with
    | .hif => if 0x100 ≤ o && o < 0x500 && o % 16 == 0 then wd (0x400 + (o - 0x100) / 16)
              else if o == 3 then wd (fld Config.serial 3 0)
              else ((rowOf b o).map fun r => wd r.reset).getD 0
    | .hearth h => if 0x20 ≤ o && o < 0x28 then wd (0x8000 + 8 * h + (o - 0x20))
              else ((rowOf b o).map fun r => wd r.reset).getD 0
    | .ident =>
      [wd 0x2416, [wd 0x0A00, wd 0x0A01, wd 0x0B00].getD Config.step.toNat (wd 0x0B00), wd Config.grade.toNat, 0,
       wordOf 4 0 Config.serial.toNat, wordOf 4 1 Config.serial.toNat, wordOf 4 2 Config.serial.toNat,
       wordOf 4 3 Config.serial.toNat].getD o 0
    | .bulk => if 0x1000 ≤ o && o < 0x1208 && o % 8 == 6 then 0x0100 else ((rowOf b o).map fun r => wd r.reset).getD 0
    | .sec => if 0x40 ≤ o && o < 0x62 then Config.idpk (o - 0x40) else ((rowOf b o).map fun r => wd r.reset).getD 0
    | _ => ((rowOf b o).map fun r => wd r.reset).getD 0

/-- The reset value of the register at a word address. -/
def regReset (a : Nat) : Word := blkReset (blkOf ((a - 0x20000000) / 0x10000)) (a % 0x10000)

/-- Whether the register at a word address is configuration class (R371). -/
def isCfg (a : Nat) : Bool :=
  ((rowOf (blkOf ((a - 0x20000000) / 0x10000)) (a % 0x10000)).map fun r => r.cfg).getD false

/-- Whether the register at a word address is part of a counter (R43). -/
def isCounter (a : Nat) : Bool :=
  ((rowOf (blkOf ((a - 0x20000000) / 0x10000)) (a % 0x10000)).map fun r => r.cnt).getD false

/-- Where a block keeps its BADW bit for a write to offset o: register offset and bit. DESIGN CHOICE (log 82): the monitors,
debug and the stove dies have no such bit, and a reserved value written there is reported nowhere. -/
def badwOf (b : Blk) (o : Nat) : Option (Nat × Nat) :=
  match b with
  | .frm | .hif | .hev | .fc | .gddr | .damper | .bulk | .flue _ =>
    (match b with
     | .flue _ => if 0x100 ≤ o then some (0x101, 7) else some (1, 7)
     | _ => some (1, 7))
  | .boot | .sec | .ember | .quad _ | .draught _ =>
    (match b with
     | .quad _ => if 0x100 ≤ o && o < 0x500 then some (o - o % 0x100 + 2, 7) else some (0, 7)
     | _ => some (0, 7))
  | .hearth _ => if 0x800 ≤ o && o < 0x1000 then some (0x801, 7) else some (0, 7)
  | .firebox _ => some (1, 7)
  | .grate _ => some (1, 7)
  | .stoker _ =>
    if 0x400 ≤ o && o < 0x600 then some (0x401, 7)
    else if 0x600 ≤ o && o < 0x800 then some (0x600 + 32 * ((o - 0x600) / 32) + 0x19, 0)
    else if 0x800 ≤ o && o < 0x1000 then some (0x901, 7)
    else some (1, 7)
  | .mon | .dbg | .ident | .die _ | .reserved => none

/-- What a write of v does to one field of an old value: the new value, and whether v was a reserved value (R15, R16). -/
def wrFld (v : Word) (f : Fld) (acc : Word × Bool) : Word × Bool :=
  match f.acc with
  | .rw =>
    if f.mn ≤ fld v f.hi f.lo && fld v f.hi f.lo ≤ f.mx then (setFld acc.1 f.hi f.lo (fld v f.hi f.lo), acc.2)
    else (acc.1, true)
  | .w1c => (acc.1 &&& ~~~(v &&& maskOf f.hi f.lo), acc.2)
  | .w1s => (acc.1 ||| (v &&& maskOf f.hi f.lo), acc.2)

/-- What a write of v makes of a register's old value under its fields (R15, R16). -/
def wrFlds (fs : List Fld) (old v : Word) : Word × Bool := fs.foldl (fun a f => wrFld v f a) (old, false)

end Sys2Proof.Machine
end

