-- ==== Sys2Proof/Machine/State.lean ====
section
/-! DEFINITION. The state of the device as plain data: every register, memory, FIFO, queue, timer and mode the spec
gives it, and the queue of waiting commands. Registers that software reads and writes live in `regs`, by word address;
state that is no register, or whose register is a view of something richer, has a field of its own. -/
namespace Sys2Proof.Machine
open Sys2Proof

/-- The block has no stop of this kind: every error the spec names sets a status, ends a program or raises a reaction, and
the device goes on. So the type has no constructor, nothing raises it, and that is safe. -/
inductive Fault where
deriving DecidableEq, Repr

/-- Why a command has no meaning. `notModelled`: its arm of exec is not written; safe, it stops. -/
inductive Refusal where
  | notModelled (mnemonic : String)
deriving DecidableEq, Repr

/-- Subchannel states (R45, R50). -/
inductive SchSt where
  | idle | startPending | active | suspended | statusPending | halted | retired
deriving DecidableEq, Repr

/-- Run states of a context (R110). -/
inductive Run where
  | inactive | ready | running | stalled | longstall | wait | stopped
deriving DecidableEq, Repr

/-- A status block and what a completion entry adds to it (R80, R324). `endc`: 0 FINAL, 1 HALTED, 2 INTERMEDIATE,
3 SUSPENDED, 4 CLEARED, 5 PATH. `kind` 0 a status, 1 an answer to a work entry. -/
structure Status where
  kind : Nat := 0
  dstatX : Byte := 0
  dstat : Byte := 0
  cstat : Word := 0
  resid : Word := 0
  lastCcw : W32 := 0
  endc : Nat := 0
  late : Bool := false
  opres : BitVec 4 := 0
  pcode : Byte := 0
  aux : Word := 0
  hseq : Word := 0
  subch : W32 := 0
  dtb : Nat := 0
  cq : Nat := 0
deriving DecidableEq, Repr

/-- What a fetched CCW continues (R56, R58, R64): a command, or the running data transfer; and whether a TIC led to it,
with that TIC's address (R55). -/
structure FetchInfo where
  addr : W32
  dataChain : Bool := false
  tic : Option W32 := none
  /-- the refetch of a RESUME or of a set RESUME_PEND (R72, R73): SUSP is judged again, RESUME_PEND is not -/
  refetch : Bool := false
deriving DecidableEq, Repr

/-- What a program that waits for its held status does once that status posts (R82). -/
inductive HeldThen where
  /-- compose the FEV status and go on with step 4 of R56 -/
  | fev
  /-- compose the POST command's status -/
  | post
  /-- confirm the speculative path with this DSTAT (R104) -/
  | conf (dstat : Byte)
deriving DecidableEq, Repr

/-- A channel step that waits for the context's own turn on the stoker (R109). -/
inductive ChStep where
  /-- go to a CCW: from the lookahead buffer, or by a fetch -/
  | goto (f : FetchInfo)
  /-- the words of a CCW have arrived, with or without an uncorrectable error -/
  | arrived (f : FetchInfo) (ws : List Word) (bad : Bool)
  /-- step 5 or 6 of R56 for the current CCW: fev has been done -/
  | perform
  /-- the timed wait is over (R71): execute, and for a NOP end -/
  | expired
  /-- a procedure or internal command returns: DSTAT, whether a path fault comes with it, and whether a procedure entry ran
  (R58, R75, R81) -/
  | ret (dstat : Byte) (pf : Bool) (entered : Bool)
  /-- a return with a nonzero D0[15:8], or a RETD with a nonzero D0 (R69, R92): its D0[7:0] -/
  | invalid (dstat : Byte)
  /-- enter the procedure with this D5 -/
  | enter (d5 : Nat)
  /-- the held status has posted -/
  | held (t : HeldThen)
deriving DecidableEq, Repr

/-- What a subchannel's channel program is doing. -/
inductive Phase where
  /-- no program, or a start-pending one -/
  | none
  /-- a CCW fetch is outstanding -/
  | fetch (f : FetchInfo)
  /-- a timed CCW waits for its instant (R71) -/
  | timed
  /-- TICK-WAIT (R54) -/
  | tickWait
  /-- a procedure entry is running -/
  | proc
  /-- a RETD has executed and its DSTAT is awaited (R92) -/
  | deferred
  /-- the context yielded after MORE (R70) -/
  | yielded
  /-- the program waits for the held status to post (R82) -/
  | heldWait (t : HeldThen)
  /-- RESUME-OTHER to another device awaits its completion (R54, R284) -/
  | remote
  /-- a channel step waits for the context's turn -/
  | step (c : ChStep)
deriving DecidableEq, Repr

/-- One CCW in the lookahead buffer: its address, its 8 words and, for a procedure code, its command table entry
(R88, R91). -/
structure LookCcw where
  addr : W32
  words : List Word
  entry : Option (Word × Word) := none
deriving DecidableEq, Repr

/-- A subchannel (R45 to R83) and its context's share of the bellows (R84). -/
structure Sch where
  st : SchSt := .idle
  phase : Phase := .none
  curPath : BitVec 2 := 0
  resumePend : Bool := false
  fwd : Bool := false
  /-- the program address or current CCW: SCH_CCW -/
  ccw : W32 := 0
  /-- the first CCW of the current data chain (R58) -/
  first : W32 := 0
  /-- the words and command table entry of the current CCW -/
  words : List Word := []
  entry : Option (Word × Word) := none
  /-- the data cursor (R60 to R65) -/
  curAddr : W32 := 0
  curOdd : Bool := false
  curCnt : Nat := 0
  /-- bytes of the CCW that lie beyond the current segment, and the next IDA entry's address (R62) -/
  more : Nat := 0
  idaPtr : W32 := 0
  /-- SCH_SPARM: the parameter of START (R47) -/
  sparm : Word := 0
  retries : Nat := 0
  runaway : Nat := 0
  late : Bool := false
  /-- the CCW ended late without its procedure, so LENERR is not set (R71) -/
  lateEnd : Bool := false
  attn : Bool := false
  hseq : Word := 0
  /-- ticks the CCW has been current (R78) -/
  tmoTicks : Nat := 0
  /-- D5 of the next procedure entry (R68) -/
  d5 : Nat := 0
  /-- HALT waits for the next boundary (R77) -/
  haltReq : Bool := false
  /-- the path in use was retired and the change waits for the return (R75) -/
  pathReq : Bool := false
  lastDstat : Byte := 0
  lastAux : Word := 0
  /-- the residual of the CCW at SCH_CCW: COUNT or 0 until its procedure returns one (R392) -/
  lastResid : Word := 0
  /-- registers +0x01 to +0x0F as they stood when the current CCW became current (R46); none before the first -/
  cfg : List Word := []
  /-- TICK_DTB of the frame in which the CCW became current, and the timed instant (R71) -/
  tickRef : Nat := 0
  tc : Nat := 0
  /-- statuses composed and not yet posted, in order (R82) -/
  held : List Status := []
  /-- a SUSPENDED status is to be composed when the held status posts (R82) -/
  suspLater : Bool := false
  look : List LookCcw := []
  /-- prefetched words by the address of their place, and the CCW they were read for (R89) -/
  prefetch : List (Nat × Word) := []
  preFor : W32 := 0
  /-- BLW_HELD: the delivered DSTAT and its path-fault mark (R93) -/
  delivered : Option (Byte × Bool) := none
  /-- a DSTAT on its way to the bellows from a grate or lane (R209, R263) -/
  arriving : List (Byte × Bool) := []
  /-- no speculative entry again for this pending return (R101) -/
  noSpec : Bool := false
  /-- the context yielded after MORE and another has had the stoker since (R70) -/
  gave : Bool := false
  /-- the fetch of a data-chained CCW while the procedure runs (R64), and bytes still to advance when it arrives -/
  dcFetch : Option FetchInfo := none
  /-- the path has changed and the PATH status waits for the held one (R82); a path fault ends the program at the return -/
  pathLater : Bool := false
  pfReq : Bool := false
  advLeft : Nat := 0
deriving DecidableEq, Repr

/-- One posted store: a run of words at rising addresses, the PC that issued it, and whether it failed (R124, R134). -/
structure Store where
  addr : List Nat
  words : List Word
  pc : BitVec 24 := 0
  /-- the tags of the flue packets that carry it and are not answered yet (R282) -/
  tags : List Byte := []
  /-- its place in the issue order of its stoker's stores (R125) -/
  seq : Nat := 0
deriving DecidableEq, Repr

/-- A hardware loop entry (R118). -/
structure LoopEnt where
  ls : BitVec 24
  le : BitVec 24
  lc : Word
deriving DecidableEq, Repr

/-- A product in flight: 32 × 32 or not, and the P set it will land (R128). -/
structure Product where
  wide : Bool
  p : W64
deriving DecidableEq, Repr

/-- A divide in flight: its results and whether V is still its to write (R171). -/
structure Divide where
  quo : W32
  rem : W32
  v : Bool
  dz : Bool
  writeV : Bool := true
deriving DecidableEq, Repr

/-- A floating-point operation in flight: destination, result and the sticky bits it sets (R175). -/
structure FpOp where
  ed : Ereg
  val : W64
  flags : Word
  /-- it runs on the shared radix-2 loop -/
  shared : Bool := false
deriving DecidableEq, Repr

/-- An FPUSH on its way (R198), with the FIFO's index. -/
structure PushFly where
  fifo : Nat
  word : Word
  eop : Bool
  odd : Bool
deriving DecidableEq, Repr

/-- What holds a STALLED or LONGSTALL context (R112, R127). -/
inductive Stall where
  | none
  /-- a load's data -/
  | load
  /-- an answer from the flue: the instruction issues again when it has come (R282) -/
  | flue
  /-- the instruction-cache line of code byte b -/
  | code (b : Nat)
  /-- FPOP, or FPOPS when mem, on a FIFO that is empty or reserved: the instruction, its register and the FIFO (R198) -/
  | pop (i : Iss) (mem : Bool) (r : Nat) (fifo : Nat)
  /-- a full posted-store queue, the fence, a divide, all arithmetic units, an E register, the divide and root loop -/
  | posted
  | fence
  | div
  | units
  | fp (ek : Nat)
  | loop
  /-- a full outbound FIFO, a full fire queue -/
  | push (fifo : Nat)
  | fire (pin : Nat)
deriving DecidableEq, Repr

/-- A flue packet as this device sends it: TYPE and the rest (R274). -/
structure TxPacket where
  typ : Nat
  p : Packet
deriving DecidableEq, Repr

/-- A context (R109, R114): its registers and what the stoker keeps for it. `r` holds the registers of the extended
register codes 0x00 to 0x1D and 0x20 to 0x27 (R143), by code. -/
structure Ctx where
  r : FMap Word := []
  e : FMap W64 := []
  loops : List LoopEnt := []
  pc : BitVec 24 := 0
  /-- the repetitions left of a REP in progress (REPACT, REPCNT), and what REPCNT reads after an early end (R162) -/
  rep : Option Nat := none
  repEnd : Nat := 0
  run : Run := .inactive
  waitc : BitVec 2 := 0
  waitEv : Bool := false
  waitTk : Bool := false
  /-- a WAIT that has not completed: the address after it (R129) -/
  waitNext : Option (BitVec 24) := none
  stall : Stall := .none
  /-- words that came back from the flue for the instruction in hand: global address and word (R282) -/
  got : List (Nat × Word) := []
  posted : List Store := []
  /-- stores of a confirmed path that wait for a place in the posted-store queue (R99, R124) -/
  drain : List Store := []
  prods : List Product := []
  div : Option Divide := none
  fops : List FpOp := []
  pushes : List PushFly := []
  /-- a context stopped by debug control that runs one instruction (R137) -/
  step1 : Bool := false
  /-- the run state to return to when debug stop ends -/
  stopped : Bool := false
  /-- frames in a row the context has been over budget (R39) -/
  ovrRun : Nat := 0
deriving DecidableEq, Repr

/-- A live speculative path of a stoker (R94 to R105). -/
structure Spec where
  owner : Nat
  x : LookCcw
  /-- the checkpoint of the context's registers (R95) -/
  ckpt : Ctx
  /-- the values the path reads for its cursor and SCH_CCW (R94) -/
  curAddr : W32
  curCnt : Nat
  more : Nat := 0
  idaPtr : W32 := 0
  /-- the configuration registers X takes with it (R46) -/
  cfg : List Word := []
  /-- the DTB holding set as the path has sampled it (R23, R85) -/
  hold : Option W64 := none
  sbuf : List Store := []
  /-- device pin and fire time of each live tentative entry (R100) -/
  tents : List (Nat × Nat) := []
  poison : Bool := false
  pause : Nat := 0
  instrs : Nat := 0
  /-- a reserved value was written on the path: STK_STAT.BADW when it is confirmed -/
  badw : Bool := false
deriving DecidableEq, Repr

/-- A load whose data is awaited (R122, R133): the context before it issued, its accesses, each with its first address and
the memory words it reads, and what an ATOM access replaced. -/
structure LoadWait where
  before : Ctx := {}
  accs : List (Nat × List Nat) := []
  /-- some word of it lies where the stall is long (R122) -/
  long : Bool := false
  old : List (Nat × Word) := []
  /-- entries the store buffer of the path held before the instruction -/
  sbuf : Nat := 0
deriving DecidableEq, Repr

/-- An instruction cache line (R121): code address of its first byte and its 32 words. -/
structure IcLine where
  base : Nat
  words : List Word
deriving DecidableEq, Repr

/-- A stoker's own state (R111, R121, R131). -/
structure Stk where
  cur : Option Nat := none
  /-- the context that last held the stoker (R112) -/
  last : Option Nat := none
  bg : Nat := 15
  /-- the owner of the open window (R38) -/
  window : Option Nat := none
  /-- no window is in force although the frames run (R40) -/
  noWindow : Bool := false
  /-- the over-budget contexts of the frame in progress (R39) -/
  ovrNow : Word := 0
  /-- events in service here with the claiming context (R131, R295) -/
  insvc : List (Nat × Nat) := []
  /-- claims and dones on their way to the hearth controller (R295, R296) -/
  claims : List Nat := []
  dones : List Nat := []
  /-- stores issued so far, by any of its contexts (R125) -/
  issued : Nat := 0
  ic : FMap IcLine := []
  spec : Option Spec := none
deriving DecidableEq, Repr

/-- A fire-queue entry (R190); `sub` none for a sequencer entry. -/
structure FqEntry where
  time : Nat
  act : BitVec 2
  tent : Bool := false
  sub : Option Nat := none
deriving DecidableEq, Repr

/-- A pin engine (R186 to R194), and the damper's own filter copy of the pin (R215). -/
structure Pin where
  lvl : Bool := false
  /-- the level the damper's filter copy holds -/
  dlvl : Bool := false
  out : Bool := false
  oe : Bool := false
  stamp : W64 := 0
  fq : List FqEntry := []
  /-- fire-queue writes on their way (R191), oldest first -/
  flying : List FqEntry := []
  /-- PINW writes on their way (R194), oldest first -/
  pinw : List (BitVec 2) := []
  /-- late actions and the fine-step times at which they take effect (R191), oldest first -/
  late : List (Nat × BitVec 2) := []
  /-- fine-step time of the last action that took effect (R192), and who made it: 0 sequencer, 1 PINW, 2 fire queue (R189) -/
  lastAct : Option Nat := none
  lastBy : Nat := 0
  /-- the gc from which an enabled output is at the ball, delayed by LEAD, and the gc of the last disable (R195) -/
  oeAt : Nat := 0
  offAt : Option Nat := none
  /-- the driven level a readback check is pending for (R339) -/
  check : Option Bool := none
deriving DecidableEq, Repr

/-- Samples of a pin at equal steps, in fine-step times: the next one's, the step, how many are still to come, and the
levels sampled so far, the first first (R206, R208). -/
structure Samp where
  pin : BitVec 4
  next : Nat
  step : Nat
  left : Nat
  got : List Bool := []
deriving DecidableEq, Repr

/-- What a holding microword waits for (R203, R206). -/
inductive Hold where
  | wait
  /-- WEDGE: whether its edge has been accepted since it began -/
  | wedge (pin : BitVec 4) (kind : BitVec 3) (limited met : Bool)
  /-- WLVL: whether the levels have met it since it began -/
  | wlvl (mask val : Word) (limited met : Bool)
  | pop (f : BitVec 2) (ka : BitVec 3)
  /-- CHO or SHO on a pin: the bits at the pin, the gc in which the first begins, the bit time, and the samples of the echo
  pin -/
  | cho (pin : BitVec 4) (frame : List Bool) (since bt : Nat) (echo : Option Samp)
  /-- CHI: the settings in force for this character, the bit time, and the samples since a falling edge, that of the start
  bit first -/
  | chi (ka : BitVec 3) (pin : BitVec 4) (limited : Bool) (cfg : Word) (bt : Nat) (samp : Option Samp)
  /-- SHI: whether INV is in force for it -/
  | shi (ka : BitVec 3) (n : Nat) (inv : Bool) (samp : Samp)
  | fqw (pin : BitVec 4) (act : BitVec 2) (time : Nat)
  | wtick
deriving DecidableEq, Repr

/-- A grate's ownership and sequencer (R185, R203 to R209). K registers, BT, SHCFG and CRC are registers. Flags are
laid out as CLRF: [7] Z, [6] C, [5] TO, [4] EOP, [3] ODD, [2] EMP, [1] FE, [0] DRP. -/
structure Grate where
  /-- the owner in force, as an exclusive-or with the grate's number, so that 0 is the reset owner (R5) -/
  ownXor : BitVec 6 := 0
  ownReq : Option FireboxNo := none
  run : Bool := false
  /-- the current or last microword (SQ_PC), and the one that executes next -/
  pc : Byte := 0
  npc : Byte := 0
  flags : Byte := 0
  stack : List Byte := []
  hold : Option Hold := none
  /-- K registers written while a microword holds: they take effect when it ends (R204), oldest first -/
  kPend : List (Nat × Word) := []
  tgt : Option Nat := none
  /-- a POST has been made since the kick; the target's program has ended since the kick (R209) -/
  posted : Bool := false
  tgtOver : Bool := false
  stopReq : Bool := false
  /-- the level the sequencer last gave each direction pin (R195) -/
  dirLvl : BitVec 4 := 0
  /-- frames since the last calibration of the bank (R211) -/
  calAge : Nat := 0
deriving DecidableEq, Repr

/-- A word in a FIFO with its tags (R197). -/
structure FWord where
  w : Word
  eop : Bool := false
  odd : Bool := false
deriving DecidableEq, Repr

/-- A FIFO (R197 to R202, R257). `mid`: the last word popped had EOP = 0. `part`: a word of the current packet has been
popped (R201). -/
structure Fifo where
  q : List FWord := []
  rsv : Nat := 0
  dropping : Bool := false
  dropBit : Bool := false
  mid : Bool := false
  part : Bool := false
  /-- free slots reserved by a started burst -/
  rsvFree : Nat := 0
deriving DecidableEq, Repr

/-- Draught channel states (register DR_CH_STAT). -/
inductive DrSt where
  | idle | run | wait | stopping | done | stopped | halted
deriving DecidableEq, Repr

/-- A burst in flight, or a descriptor fetch through the flue: its words; for a bound channel the cursor's address, place
in the word, bytes left in the segment and CCW words as they were at the reservation; the tags and word counts of flue
reads in address order; whether its flue writes have been sent. -/
structure Burst where
  n : Nat
  addr : Nat := 0
  odd : Bool := false
  cnt : Nat := 0
  cw : List Word := []
  reads : List (Nat × Nat) := []
  sent : Bool := false
  /-- the words sent, which a RESUME sends again (R252) -/
  ws : List Word := []
  /-- words of the data prefetch buffer, by their address (R248) -/
  pre : List (Nat × Word) := []
deriving DecidableEq, Repr

/-- A bound channel's segment from the moment it is told to stop: it runs to its end (R251). -/
structure Seg where
  addr : Nat
  odd : Bool
  cnt : Nat
  more : Nat
  cw : List Word
deriving DecidableEq, Repr

/-- A draught channel (R243 to R253). -/
structure Chan where
  st : DrSt := .idle
  bound : Option Nat := none
  err : BitVec 4 := 0
  /-- the descriptor's words; bytes left; source and destination addresses reached -/
  desc : List Word := []
  left : Nat := 0
  src : Nat := 0
  dst : Nat := 0
  burst : Option Burst := none
  stopReq : Bool := false
  seg : Option Seg := none
  /-- a descriptor fetch is outstanding -/
  fetching : Bool := false
  /-- the FIFO of a binding -/
  fifo : Option FifoId := none
  /-- bytes of a bound input taken from the FIFO and not yet stored, whether the stream ends with them, and the byte last
  stored at bits [15:8] (R250) -/
  carry : List Byte := []
  carryEop : Bool := false
  lastByte : Byte := 0
  /-- START goes on in the descriptor that DR_CH_DESC names (R251) -/
  part : Bool := false
  /-- a bus error halted it: the transaction to issue again was a descriptor fetch -/
  latched : Bool := false
  /-- the RESUME is under way: a further bus error is permanent (R337) -/
  resumed : Bool := false
  /-- the descriptor must be rewritten before START (R252) -/
  needDesc : Bool := false
  /-- words that came back from the flue for the burst in hand, by tag (R282) -/
  got : List (Nat × List Word) := []
deriving DecidableEq, Repr

/-- A damper rule's live state; its words are registers (R217 to R223). -/
structure Rule where
  /-- the rule is in force (armed, within 16 gc of the write) -/
  inForce : Bool := false
  /-- a write of rule words waits to take effect -/
  changed : Bool := false
  tripped : Bool := false
  /-- the condition has become true while the rule was in force and the trip has not been taken: the stamp of the edge; and
  it has become false since (R217) -/
  seen : Option Nat := none
  fell : Bool := false
  /-- an accepted release waits to take effect -/
  relReq : Bool := false
  /-- a parity error stands until the rule is rewritten; and the rule is treated as latched until it is released (R223) -/
  parity : Bool := false
  stuck : Bool := false
  /-- the words the damper evaluates: w0 to w4 -/
  w : List Word := [0, 0, 0, 0, 0]
deriving DecidableEq, Repr

/-- A chimney lane (R256 to R263). -/
structure Lane where
  /-- owner in force -/
  own : Option FireboxNo := none
  ownReq : Option Word := none
  post : Option Nat := none
  postDstat : Byte := 0
  /-- the target's program has ended since the arm (R263) -/
  tgtOver : Bool := false
  /-- frames whose EOP word had entered TXD when the post was armed and that have not left yet; and the frame the post
  covers was discarded in TXD -/
  ahead : Nat := 0
  lost : Bool := false
  sending : Bool := false
  /-- the words of the frame being sent, and the stamp of its first bit (R264) -/
  txWords : List FWord := []
  txStamp : W64 := 0
  /-- the rest of a frame that was cut short is discarded as it arrives, up to its EOP word -/
  discard : Bool := false
deriving DecidableEq, Repr

/-- The request of a stoker on the flue (R282). -/
inductive Outst where
  | load (sub : Nat) (addr n : Nat)
  /-- words read ahead for a context (R89) -/
  | prefetch (sub : Nat) (addr n : Nat)
  | atom (sub : Nat) (addr n : Nat)
  | store (sub : Nat)
  /-- channel, address, and whether it is a write -/
  | draught (ch addr : Nat) (wr : Bool)
  | win (who : Nat)
  | op (who : Nat)
  | wq (n : Nat)
  | resume (sub : Nat)
deriving DecidableEq, Repr

/-- A flue port's link state (R272 to R289). -/
structure Flue where
  txSeq : BitVec 12 := 0
  rxSeq : BitVec 12 := 0
  replay : List TxPacket := []
  waiting : List TxPacket := []
  reqCr : Nat := 32
  cplCr : Nat := 32
  tries : Nat := 0
  replays : Nat := 0
  replaySeq : BitVec 12 := 0
  bringup : Bool := false
  /-- packets accepted since the last ACK sent -/
  unacked : Nat := 0
  /-- places for requests and for completions freed since the last ACK sent, whose credits the next one returns (R275) -/
  freeReq : Nat := 0
  freeCpl : Nat := 0
  /-- control blocks sent: last ACK with the credits it returned, last NAK -/
  ackSent : Option (BitVec 12 × Nat × Nat) := none
  nakSent : Option (BitVec 12) := none
  /-- TIME blocks: t1 of the one sent last as upstream port, t1 and t4 as returned last, t3 of the follower's last (R286) -/
  timeT1 : Option W64 := none
  timeBack : Option (W64 × W64) := none
  timeT3 : Option W64 := none
  fr : Int := 0
  lockRun : Nat := 0
  lostRun : Nat := 0
deriving DecidableEq, Repr

/-- One source's remote-operation port (R285). -/
structure Rop where
  sub : Sub := 0
  pend : Bool := false
  none : Bool := true
  flerr : BitVec 2 := 0
  op : BitVec 4 := 0
  res : BitVec 4 := 0
deriving DecidableEq, Repr

/-- One source's result at one operation port (R47). -/
structure OppRes where
  op : BitVec 4 := 0
  none : Bool := true
  res : BitVec 4 := 0
deriving DecidableEq, Repr

/-- Who waits to post to a completion queue, in order (R325). -/
inductive Waiter where
  | sub (n : Nat)
  | wq (n : Nat)
deriving DecidableEq, Repr

/-- The work entry that a queue applies: the HSEQ expected when it was begun, its address and its answer queue. -/
structure WqEntry where
  expect : Word
  addr : Nat
  acq : Nat
deriving DecidableEq, Repr

/-- A work queue beyond its registers (R316 to R323). -/
structure Wq where
  ready : Bool := false
  initing : Bool := false
  polling : Bool := false
  /-- cached entries: index and 16 words -/
  cache : List (Nat × List Word) := []
  /-- the entry being applied has waited for its answer queue, or for a remote answer -/
  stall : Bool := false
  /-- the entry being applied: set when the device begins it (R321, R322) -/
  begun : Option WqEntry := none
  /-- the answer composed and not yet posted, and the entry it answers -/
  answer : Option Status := none
  remote : Bool := false
deriving DecidableEq, Repr

/-- A completion queue beyond its registers (R324 to R328). -/
structure Cq where
  ready : Bool := false
  full : Bool := false
  waiting : List Waiter := []
  round : Nat := 0
  timerOn : Bool := false
  timerExp : Bool := false
  /-- posts made since host event 0x01 + n was claimed -/
  sinceClaim : Nat := 0
  asserted : Bool := false
deriving DecidableEq, Repr

/-- A fault source's reaction (R330 to R337). -/
structure FltSt where
  /-- the level of the pending reaction -/
  level : Nat := 0
  timerOn : Bool := false
  /-- the reaction was made of forced occurrences only (R335) -/
  forcedOnly : Bool := false
  permanent : Bool := false
  winOpen : Bool := false
  /-- a KIND 0 or KIND 1 record was written in this frame (R347) -/
  logged : Bool := false
  /-- what made the last occurrence, and whether it was found permanent (R346) -/
  raw : Bool := false
  forced : Bool := false
  /-- the unit the occurrence names -/
  unit : Word := 0
deriving DecidableEq, Repr

/-- A soot record (R346). -/
structure Soot where
  w0 : Word
  w1 : Word
  dtb : Nat
deriving DecidableEq, Repr

/-- Self-test states (register ST_STAT). -/
inductive StSt where
  | idle | running | deferred | refused | pass | fail
deriving DecidableEq, Repr

/-- The self-test in hand (R349, R350). -/
structure SelfTest where
  st : StSt := .idle
  kind : BitVec 4 := 0
  blk : BlkNo := 0
  steps : Nat := 0
  skipped : Nat := 0
deriving DecidableEq, Repr

/-- What is still to be done before a command is complete: faults found and not yet reacted to, what reactions ask of the
subchannels, and stokers that have to choose again. `settle` works the list off, first in first out. -/
inductive Due where
  /-- an occurrence of source i of block blk: detector (raw), force; the unit it names; whether the block's own retry
  has failed (R330, R337) -/
  | fault (blk i : Nat) (raw forced : Bool) (unit : Word) (retryFailed : Bool)
  /-- a path fault reported to a subchannel whose program uses the path (R81) -/
  | pathFault (sub : Nat)
  /-- every path through a grate or a lane is retired (R340) -/
  | retirePaths (lane : Bool) (num : Nat)
  /-- the program ends by abort with these CSTAT bits, PCODE, DSTAT_X and AUX (R78) -/
  | abort (sub : Nat) (cstat : Word) (pcode : Byte) (dstatX : Byte) (aux : Word)
  /-- the subchannel enters retired (R75) -/
  | retireSub (sub : Nat)
  /-- the stoker chooses a context (R111) -/
  | resched (stk : Nat)
  /-- the running context of the subchannel carries on with its channel step -/
  | turn (sub : Nat)
  /-- the data cursor carries on: bytes still to advance, a segment's end (R62 to R65) -/
  | advance (sub : Nat)
  /-- RESUME of a subchannel of this device (R54) -/
  | resume (by_ sub : Nat)
  /-- RESUME of a subchannel of another device (R54, R284) -/
  | remoteResume (by_ dev sub : Nat)
  /-- a chimney lane is retired, or brought up again (R331, R340) -/
  | laneRetire (l : Nat)
  | laneBringup (l : Nat)
  /-- a flue port retrains, or retires a lane (R278, R331) -/
  | flueRetrain (p : Nat)
  | flueLaneRetire (p lane : Nat)
  /-- an answer from the flue reaches its requester: STAT, CNT and data (R282, R285) -/
  | flueCpl (tag stat cnt : Nat) (data : List Word)
  /-- a requester's packet found no route: the answer to it is made here (R279) -/
  | flueDrop (tag : Nat) (stat : Nat)
  /-- the completion queue may have room for waiting statuses -/
  | post (cq : Nat)
deriving DecidableEq, Repr

/-- Power, reset and clock state (R21, R226, R375 to R379). -/
structure Power where
  resetN : Bool := false
  pll : Bool := false
  tbLost : Bool := false
  railLow : Bool := false
  emberOk : Bool := true
  safeN : Bool := true
  bootsel : BitVec 2 := 0
  /-- the conditions of MON_TEMP and MON_TEMP_CRIT hold, and the rails outside their tolerance (R383, R384) -/
  hot : Bool := false
  crit : Bool := false
  railsOut : List Nat := []
deriving DecidableEq, Repr

/-- SYNC_IN states (R34). -/
inductive Sync where
  | off | locked | free
deriving DecidableEq, Repr

/-- The frame timer beyond its registers (R21 to R35). -/
structure FrameT where
  dtb : Nat := 0
  /-- fine steps past the ns of the DTB; fine steps to add over an interval of so many gc, and the gc of it gone by (R286) -/
  fine : Nat := 0
  slew : Int := 0
  slewN : Nat := 0
  slewAt : Nat := 0
  running : Bool := false
  waiting : Bool := false
  /-- START_SYNC as read when the frames were started -/
  startSync : Bool := false
  /-- the start decision has been taken -/
  started : Bool := false
  stopPending : Bool := false
  /-- the decision for the coming tick has been taken -/
  decided : Bool := false
  pendPeriod : Option Nat := none
  /-- FRM_PERIOD_HI as last committed, whether or not the change was refused (R391) -/
  commitHi : Word := 1
  pendAsh : Option Word := none
  pendK : Option (BitVec 4) := none
  /-- the timing the next tick applies, decided and not yet in force -/
  period : Nat := 125000
  ash : Nat := 256
  k : Nat := 6
  /-- the period of the frame in progress, and of the frame that ended at the last tick (R33) -/
  framePeriod : Nat := 125000
  prevPeriod : Nat := 125000
  frmNum : BitVec 48 := 0xFFFFFFFFFFFF
  tickDtb : Nat := 0
  nextTick : Nat := 0
  corr : Int := 0
  /-- the error of a pulse accepted before the tick it belongs to, or used in the ash slot for the next frame, in fine
  steps (R33, R34) -/
  earlyE : Option Int := none
  syncErr : Int := 0
  syncCorr : Int := 0
  sync : Sync := .off
  missRun : Nat := 0
  /-- the capture window of the expected tick has its pulse -/
  captured : Bool := false
  inAsh : Bool := false
  syncOut : Bool := false
  snapFrame : Word := 0xFFFF
  snapDue : Bool := false
  /-- DTB of the last tick at which GDDR6 was retrained, in frames (R238) -/
  framesSinceTrain : Nat := 0
deriving DecidableEq, Repr

/-- The host event controller beyond its registers (R302 to R304). `levels` holds the asserted level sources of each
event, keyed event × 65536 + source. -/
structure Hev where
  levels : FMap Bool := []
  /-- the number latched by the last evaluation and not claimed since, 0 for none (R298, R302) -/
  latch : Byte := 0
  lastSig : Nat := 0
  /-- an IBI is requested and awaits the controller -/
  ibi : Bool := false
  /-- a NACKed IBI waits for its backoff -/
  backoff : Bool := false
  retry : Nat := 0
  wake : Bool := false
  heldSig : Bool := false
  lastByte : Option Byte := none
deriving DecidableEq, Repr

/-- A read or a write of words at rising addresses that the I3C window or the bulk port has in hand (R315, R268): the next
word's address, words still to write with their byte enables (bit 1 for [15:8], bit 0 for [7:0]) or the number of words
still to read, the words read, how many words are done, and whether an answer from the flue is awaited. -/
structure HostJob where
  wr : Bool
  next : Nat
  left : List (Word × BitVec 2) := []
  /-- first words of work entries, written after the others (R315) -/
  last : List (Nat × (Word × BitVec 2)) := []
  n : Nat := 0
  got : List Word := []
  done : Nat := 0
  wait : Bool := false
deriving DecidableEq, Repr

/-- A READ or WRITE that the I3C window executes (R314). -/
structure WinReq where
  op : Nat
  tag : Word
  job : HostJob
deriving DecidableEq, Repr

/-- The I3C target (R306 to R314). `reply` is what the last read or CCC answered; none for a NACK. -/
structure I3c where
  /-- the bus is in an HDR mode that the target does not support, up to the HDR Exit Pattern (R306) -/
  deaf : Bool := false
  da : Option (BitVec 7) := none
  tint : Bool := true
  hj : Bool := true
  hdr : Bool := false
  crcFlag : Bool := false
  resp : Option (List Byte) := none
  respRead : Bool := false
  reply : Option (List Byte) := none
  hotJoin : Bool := false
  /-- the READ or WRITE that executes (R314) -/
  exec : Option WinReq := none
deriving DecidableEq, Repr

/-- An MSI-X memory write: its vector, and the address and data of the vector's table entry (R268). -/
structure MsixMsg where
  vec : Nat
  addr : W64
  data : W32
deriving DecidableEq, Repr

/-- The bulk port beyond its registers (R266 to R270). -/
structure Bulk where
  linkUp : Bool := false
  nwidth : BitVec 2 := 0
  ngen : BitVec 2 := 0
  /-- WIDTH, GEN and EN applied by the last training -/
  width : BitVec 2 := 3
  gen : BitVec 2 := 3
  on : Bool := true
  d3 : Bool := false
  bme : Bool := false
  fnMask : Bool := false
  msixEn : Bool := false
  /-- completions sent since the link came up, in order: 0 successful, 1 Unsupported Request, 2 Completer Abort, and the
  data -/
  cpl : List (Nat × List Word) := []
  /-- read and write requests not yet carried out, in the order received (R269) -/
  jobs : List HostJob := []
  /-- MSI-X messages sent, in order -/
  msix : List MsixMsg := []
deriving DecidableEq, Repr

/-- Device fault control beyond its registers (R341, R345, R347, R350). Units in reset and under a reset shadow are
(scope, unit) pairs: 1 stoker, 2 firebox, 3 hearth, 4 stove die. -/
structure Fc where
  soot : List Soot := []
  pulse : Bool := false
  test : SelfTest := {}
  inReset : List (Nat × Nat) := []
  shadows : List (Nat × Nat) := []
  lostDue : Bool := false
  /-- the soot sequence number of the next record -/
  seq : W32 := 1
deriving DecidableEq, Repr

/-- The boot loader beyond its registers (R356 to R363). -/
structure Boot where
  stage : Nat := 0
  src : BitVec 2 := 0
  bankB : Bool := false
  fallback : Bool := false
  octal : Bool := false
  causeA : BitVec 4 := 0
  causeB : BitVec 4 := 0
  /-- header, directory and signature words as read -/
  img : List Word := []
  /-- a pushed image, the number of the source pushes are taken from, the words that wait in the push buffer -/
  pushing : Bool := false
  pushSrc : Option Nat := none
  pushed : List Word := []
  /-- the record in hand: its number, and its words read so far -/
  recNo : Nat := 0
  rec_ : List Word := []
  rereads : Nat := 0
  capWords : Nat := 0
deriving DecidableEq, Repr

/-- The security engine and the ember domain beyond their registers (R365 to R371). -/
structure Sec where
  katOk : Bool := false
  state : Nat := 0
  cause : Nat := 0
  cfgGen : Nat := 0
  g0 : Nat := 0
  d : Nat := 0
  tries : Nat := 0
  unstable : Bool := false
  /-- SOOT_SEQ when the try in hand began -/
  sootAt : W32 := 0
  nonce : List Word := []
  /-- the signed words w0 to w71 are built, and the signature is under way -/
  signing : Bool := false
  words : List Word := []
  /-- nonce words per source, keyed source × 16 + word -/
  nonces : FMap Word := []
  next : Nat := Config.emberNext
  resEnd : Nat := Config.emberResEnd
  mramBusy : Bool := false
  /-- the word EMB_DATA last answered -/
  embRead : Word := 0
deriving DecidableEq, Repr

/-- The TAP and the fuses (R361, R382). `keys` holds the key hash of each filled slot. -/
structure Tap where
  ir : Byte := 0x01
  chain : FMap Bool := []
  keys : FMap (BitVec 256) := []
  revoked : BitVec 4 := 0
  capture : BitVec 258 := 0
deriving DecidableEq, Repr

/-- Safe state (R224 to R226, R343). -/
structure Safe where
  on : Bool := false
  cause : Nat := 0
  rule : Option Nat := none
deriving DecidableEq, Repr

/-- The state of the device. -/
structure State where
  /-- the commands that wait, first in first out -/
  pending : List Instr := []
  /-- what the command in hand still has to do -/
  due : List Due := []
  /-- free values used so far: the model's own counter -/
  free : Nat := 0
  pwr : Power := {}
  ft : FrameT := {}
  /-- registers by word address -/
  regs : FMap Word := []
  /-- the two copies of the counter shadows, by counter address, and which one readers see (R44) -/
  shadowA : FMap Word := []
  shadowB : FMap Word := []
  shadowSel : Bool := false
  /-- words held per source: DTB holding sets (source × 4 + word) and staged high words (source and register) -/
  dtbHold : FMap W64 := []
  staged : FMap Word := []
  /-- memory bytes at byte address 2 × word + 0 (high) or 1 (low); the deep store follows the word map (R228, R231) -/
  mem : List Host.Cell := []
  /-- words with a stored error: 1 correctable, 2 uncorrectable (R234, R235) -/
  marks : FMap Nat := []
  /-- ember MRAM words written, by word number (R365) -/
  mram : FMap Word := []
  ctx : FMap Ctx := []
  sch : FMap Sch := []
  stk : FMap Stk := []
  /-- loads whose data is awaited, by subchannel -/
  loads : FMap LoadWait := []
  opp : FMap OppRes := []
  pins : FMap Pin := []
  grates : FMap Grate := []
  fifos : FMap Fifo := []
  chans : FMap Chan := []
  /-- the channel each draught engine chose last (R243) -/
  drLast : FMap Nat := []
  rules : FMap Rule := []
  safe : Safe := {}
  lanes : FMap Lane := []
  flues : FMap Flue := []
  rops : FMap Rop := []
  outst : FMap Outst := []
  nextTag : Byte := 0
  /-- the device whose flue request is being served: SRC of the write log (R371) -/
  flueSrc : DevNo := 0
  /-- answers from the flue to window and bulk reads and writes: who asked, STAT, data -/
  winGot : List (Nat × Nat × List Word) := []
  /-- base-die requesters whose next access has no answer (R236, R393) -/
  mute : List BusReq := []
  /-- asserted level sources and orphan states, by hearth × 1024 + source; presented numbers by stoker -/
  evLevel : FMap Bool := []
  /-- the host event a level source goes to, by hearth × 1024 + source (R298, R301) -/
  evHost : FMap Nat := []
  evOrphan : FMap Bool := []
  presented : FMap Nat := []
  hev : Hev := {}
  i3c : I3c := {}
  wqs : FMap Wq := []
  /-- the work queue served last (R322) -/
  wqLast : Nat := 63
  cqs : FMap Cq := []
  bulk : Bulk := {}
  flts : FMap FltSt := []
  fc : Fc := {}
  boot : Boot := {}
  sec : Sec := {}
  tap : Tap := {}
deriving DecidableEq, Repr

/-- The device while RESET_N is low: every field at its reset value, no command waiting. -/
def State.reset : State := {}

end Sys2Proof.Machine
end

