-- ==== Sys2Proof/Machine/Ops.lean ====
section
/-! DEFINITION. The named operations over the state: raw registers, counters, the units' own records, work still to be
done (Due), event sources of the hearths and of the host (R291 to R301), and the requests of FIFOs (R202). -/
namespace Sys2Proof.Machine
open Sys2Proof

/-- The register at a word address, as stored. -/
def reg (a : Nat) (s : State) : Word := mget (regReset a) a s.regs

/-- Store a register. -/
def setReg (a : Nat) (v : Word) (s : State) : State := { s with regs := mset (regReset a) a v s.regs }

/-- Register `ofs` of block index n, as stored. -/
def rg (n ofs : Nat) (s : State) : Word := reg (ra n ofs) s

/-- Store register `ofs` of block index n. -/
def setRg (n ofs : Nat) (v : Word) (s : State) : State := setReg (ra n ofs) v s

/-- Set or clear bit i of a register. -/
def setRgBit (n ofs i : Nat) (b : Bool) (s : State) : State := setRg n ofs (setBit (rg n ofs s) i b) s

/-- Replace field [hi:lo] of a register. -/
def setRgFld (n ofs hi lo v : Nat) (s : State) : State := setRg n ofs (setFld (rg n ofs s) hi lo v) s

/-- Store a value over k registers, most significant word first (R14). -/
def setRgs (n ofs : Nat) : List Word → State → State
  | [], s => s
  | w :: ws, s => setRgs n (ofs + 1) ws (setRg n ofs w s)

/-- The value of k registers, most significant word first (R14). -/
def rgs (n ofs k : Nat) (s : State) : Nat := valOf ((span ofs k).map fun o => rg n o s)

/-- Add m to the counter whose high word is at offset ofs, modulo 2^32 (R43). -/
def countBy (n ofs m : Nat) (s : State) : State :=
  setRgs n ofs (wordsOf 2 ((rgs n ofs 2 s + m) % 2 ^ 32)) s

/-- Add 1 to a counter (R43). -/
def count (n ofs : Nat) (s : State) : State := countBy n ofs 1 s

/-- Block indexes of the repeated blocks (R6). -/
def bStk (k : Nat) : Nat := 0x100 + k
/-- Block index of grate g. -/
def bGrt (g : Nat) : Nat := 0xC0 + g
/-- Block index of the draught engine of firebox f. -/
def bDr (f : Nat) : Nat := 0x80 + f
/-- Block index of firebox f. -/
def bFbx (f : Nat) : Nat := 0x40 + f
/-- Block index of hearth h. -/
def bHrt (h : Nat) : Nat := 0x20 + h
/-- Block index of chimney quad q. -/
def bQd (q : Nat) : Nat := 0x18 + q
/-- Block index of flue port p. -/
def bFl (p : Nat) : Nat := 0x14 + p

/-- Stoker of a subchannel (R4). -/
def stkOf (sub : Nat) : Nat := sub / 16
/-- Context of a subchannel (R4). -/
def ctxOf (sub : Nat) : Nat := sub % 16
/-- Firebox of a stoker (R4). -/
def fbxOf (stk : Nat) : Nat := stk / 8
/-- Firebox of a subchannel (R4). -/
def subFbx (sub : Nat) : Nat := sub / 128
/-- Hearth of a stoker (R4). -/
def hrtOf (stk : Nat) : Nat := stk / 64

/-- Words above and below a default record: the records of the units. -/
def ctx (k : Nat) (s : State) : Ctx := mget {} k s.ctx
/-- The subchannel k. -/
def sch (k : Nat) (s : State) : Sch := mget {} k s.sch
/-- The stoker k. -/
def stk (k : Nat) (s : State) : Stk := mget {} k s.stk
/-- The device pin k. -/
def pin (k : Nat) (s : State) : Pin := mget {} k s.pins
/-- The grate k. -/
def grate (k : Nat) (s : State) : Grate := mget {} k s.grates
/-- The FIFO k: grate g FIFO i is 8g + i, lane l FIFO f is 512 + 4l + f. -/
def fifo (k : Nat) (s : State) : Fifo := mget {} k s.fifos
/-- The draught channel k: channel n of firebox f is 16f + n. -/
def chan (k : Nat) (s : State) : Chan := mget {} k s.chans
/-- The damper rule k. -/
def rule (k : Nat) (s : State) : Rule := mget {} k s.rules
/-- The lane k. -/
def lane (k : Nat) (s : State) : Lane := mget {} k s.lanes
/-- The flue port k. -/
def flue (k : Nat) (s : State) : Flue := mget {} k s.flues
/-- The work queue k. -/
def wq (k : Nat) (s : State) : Wq := mget {} k s.wqs
/-- The completion queue k. -/
def cq (k : Nat) (s : State) : Cq := mget {} k s.cqs
/-- The fault source k: source i of block b is 16b + i. -/
def flt (k : Nat) (s : State) : FltSt := mget {} k s.flts

/-- Change a context. -/
def modCtx (k : Nat) (f : Ctx → Ctx) (s : State) : State := { s with ctx := mmod {} k f s.ctx }
/-- Change a context and what it stood at before a load that is still awaited. -/
def modCtxToo (sub : Nat) (f : Ctx → Ctx) (s : State) : State :=
  let s1 := modCtx sub f s
  match s1.loads.find? fun kv => kv.1 == sub with
  | none => s1
  | some (_, e) => { s1 with loads := mput sub { e with before := f e.before } s1.loads }

/-- Change a subchannel. -/
def modSch (k : Nat) (f : Sch → Sch) (s : State) : State := { s with sch := mmod {} k f s.sch }
/-- Change a stoker. -/
def modStk (k : Nat) (f : Stk → Stk) (s : State) : State := { s with stk := mmod {} k f s.stk }
/-- Change a pin. -/
def modPin (k : Nat) (f : Pin → Pin) (s : State) : State := { s with pins := mmod {} k f s.pins }
/-- Change a grate. -/
def modGrate (k : Nat) (f : Grate → Grate) (s : State) : State := { s with grates := mmod {} k f s.grates }
/-- Change a FIFO. -/
def modFifo (k : Nat) (f : Fifo → Fifo) (s : State) : State := { s with fifos := mmod {} k f s.fifos }
/-- Change a draught channel. -/
def modChan (k : Nat) (f : Chan → Chan) (s : State) : State := { s with chans := mmod {} k f s.chans }
/-- Change a damper rule. -/
def modRule (k : Nat) (f : Rule → Rule) (s : State) : State := { s with rules := mmod {} k f s.rules }
/-- Change a lane. -/
def modLane (k : Nat) (f : Lane → Lane) (s : State) : State := { s with lanes := mmod {} k f s.lanes }
/-- Change a flue port. -/
def modFlue (k : Nat) (f : Flue → Flue) (s : State) : State := { s with flues := mmod {} k f s.flues }
/-- Change a work queue. -/
def modWq (k : Nat) (f : Wq → Wq) (s : State) : State := { s with wqs := mmod {} k f s.wqs }
/-- Change a completion queue. -/
def modCq (k : Nat) (f : Cq → Cq) (s : State) : State := { s with cqs := mmod {} k f s.cqs }
/-- Change a fault source. -/
def modFlt (k : Nat) (f : FltSt → FltSt) (s : State) : State := { s with flts := mmod {} k f s.flts }

/-- The device runs: RESET_N is high, the timebase PLL has locked and no core rail is low (R21, R376, R379). -/
def up (s : State) : Bool := s.pwr.resetN && s.pwr.pll && !s.pwr.railLow

/-- Boot has reached its last stage: the holds of R359 have ended. -/
def booted (s : State) : Bool := s.boot.stage == 8

/-- Add work to be done before the command is complete. -/
def addDue (d : Due) (s : State) : State := { s with due := s.due ++ [d] }

/-- A detector of source i of block index b fires, naming a unit (R330). -/
def raise (b i : Nat) (unit : Word) (s : State) : State := addDue (.fault b i true false unit false) s

/-- A fresh free value: a word the spec does not fix. -/
def freshWord (s : State) : Word × State := (Config.freeWord s.free, { s with free := s.free + 1 })

/-- The DTB has come at least to fine-step time t. -/
def reachFine (t : Nat) (s : State) : State := { s with ft := { s.ft with dtb := max s.ft.dtb (t / 16) } }

/-- An access of requester r has no answer (R236): whether its effect f has come about is a free value. -/
def unheard (r : BusReq) (f : State → State) (s : State) : State :=
  let w := freshWord { s with mute := s.mute.filter fun x => x != r }
  if bit w.1 0 then f w.2 else w.2

/-- The next access of requester r will have no answer. -/
def silence (r : BusReq) (s : State) : State := if s.mute.contains r then s else { s with mute := s.mute ++ [r] }

/-- Apply f for each number of a list. -/
def forAll (ns : List Nat) (f : Nat → State → State) (s : State) : State := ns.foldl (fun t n => f n t) s

/-- Apply f when b holds. -/
def doIf (b : Bool) (f : State → State) (s : State) : State := if b then f s else s

/-! ### FIFOs (R197, R202, R257) -/

/-- The index of a FIFO in the state. -/
def FifoId.idx : FifoId → Nat
  | .grate g i => 8 * g.toNat + i.toNat
  | .lane l f => 512 + 4 * l.toNat + f.toNat

/-- FIFO f of lane l. -/
def lnFifo (l f : Nat) : Nat := 512 + 4 * l + f

/-- The FIFO that one side of a descriptor names: kind 1 a grate's, 2 a lane's; b is SRC or DST (R244). -/
def sideFifo (kind b : Nat) (out : Bool) : Option Nat :=
  if kind = 1 then some (8 * (b % 64) + b / 64 + (if out then 4 else 0))
  else if kind = 2 then some (lnFifo (b % 64) (b / 64))
  else none

/-- The FIFO side of a descriptor: the source, else the destination. -/
def descFifo (d : List Word) : Option Nat :=
  match sideFifo (fld (nth d 0) 15 14) (fld (nth d 1) 15 8) false with
  | some k => some k
  | none => sideFifo (fld (nth d 0) 13 12) (fld (nth d 1) 7 0) true

/-- Whether FIFO k is one of a lane. -/
def fifoIsLane (k : Nat) : Bool := decide (512 ≤ k)

/-- Whether FIFO k is inbound: IN0 to IN3 of a grate; RXD, RXS and TXS of a lane (R257). -/
def fifoInbound (k : Nat) : Bool := if 512 ≤ k then decide (k % 4 ≠ 2) else decide (k % 8 < 4)

/-- Words FIFO k holds at most: 256, or 8,192 for RXD and TXD of a lane (R183, R257). -/
def fifoCap (k : Nat) : Nat := if 512 ≤ k && k % 2 == 0 then 8192 else 256

/-- Word address of the request point register of FIFO k: FIFO_CTL or LN_FIFO_CTL. -/
def fifoCtlAddr (k : Nat) : Nat :=
  if 512 ≤ k then ra (bQd ((k - 512) / 16)) (0x110 + ((k - 512) / 4 % 4) * 0x100 + 4 * (k % 4))
  else ra (bGrt (k / 8)) (0x200 + 4 * (k % 8))

/-- Free words of a FIFO: those not held and not reserved by a started burst. -/
def fifoFree (k : Nat) (s : State) : Nat := fifoCap k - (fifo k s).q.length - (fifo k s).rsvFree

/-- Whether a FIFO requests (R202). -/
def fifoReq (k : Nat) (s : State) : Bool :=
  let lev := fld (reg (fifoCtlAddr k) s) 13 0
  if fifoInbound k then decide (lev ≤ (fifo k s).q.length) || (fifo k s).q.any (fun w => w.eop)
  else decide (lev ≤ fifoCap k - (fifo k s).q.length)

/-! ### Event sources of the hearths (R291 to R301) -/

/-- The owner firebox of a grate (R184). -/
def grateOwner (g : Nat) (s : State) : Nat := (BitVec.ofNat 6 g ^^^ (grate g s).ownXor).toNat

/-- The bit of event n within its word: bit 15 − k for source 16w + k. -/
def evBit (n : Nat) : Nat := 15 - n % 16

/-- Bit of event n in a register array at offset base of block b. -/
def evGet (b base n : Nat) (s : State) : Bool := bit (rg b (base + n / 16) s) (evBit n)

/-- Set or clear bit of event n in a register array at offset base of block b. -/
def evPut (b base n : Nat) (v : Bool) (s : State) : State := setRgBit b (base + n / 16) (evBit n) v s

/-- The host event controller's pending edge e (R300). -/
def hevEdge (e : Nat) (s : State) : State := doIf (decide (0 < e) && decide (e < 256)) (evPut 2 0x20 e true) s

/-- Routing of source n of hearth h: target 0 to 63, or 64 for the host. -/
def evTarget (h n : Nat) (s : State) : Nat := fld (rg (bHrt h) (0x1000 + n) s) 6 0

/-- The host event number a source of hearth h is routed to. -/
def evHnum (h n : Nat) (s : State) : Nat := fld (rg (bHrt h) (0x1000 + n) s) 15 8

/-- Source n of hearth h is enabled. -/
def evEn (h n : Nat) (s : State) : Bool := evGet (bHrt h) 0x100 n s

/-- An edge of source n reaches hearth h's controller (R293, R301). 0 and the numbers above 0x3CA are never pending. -/
def evEdge (h n : Nat) (s : State) : State :=
  if n = 0 || 0x3CB ≤ n then s
  else if evTarget h n s = 64 && evEn h n s then hevEdge (evHnum h n s) s
  else if evGet (bHrt h) 0x140 n s then count (bHrt h) 0x402 s
  else evPut (bHrt h) 0x140 n true s

/-- The slot of hearth h that validly names grate g, if any (R292). -/
def gSlot (h g : Nat) (s : State) : Option Nat :=
  (span 0 32).find? fun k => bit (rg (bHrt h) (0x20 + k) s) 15 && fld (rg (bHrt h) (0x20 + k) s) 5 0 == g

/-- The slot of hearth h that validly names lane l, if any (R292). -/
def lSlot (h l : Nat) (s : State) : Option Nat :=
  (span 0 16).find? fun k => bit (rg (bHrt h) (0x40 + k) s) 15 && fld (rg (bHrt h) (0x40 + k) s) 5 0 == l

/-- An edge of grate source i: to the hearth of the owner through its slot; lost, and counted, at any other hearth whose
slot names the grate (R292). -/
def grateEdge (g i : Nat) (s : State) : State :=
  forAll (span 0 8) (fun h t =>
    match gSlot h g t with
    | none => t
    | some k => if grateOwner g t / 8 = h then evEdge h (0x100 + 16 * k + i) t else count (bHrt h) 0x408 t) s

/-- An edge of lane source i (R265, R292). -/
def laneEdge (l i : Nat) (s : State) : State :=
  forAll (span 0 8) (fun h t =>
    match lSlot h l t with
    | none => t
    | some k =>
      if (lane l t).own.map (fun f => f.toNat / 8) = some h then evEdge h (0x300 + 8 * k + i) t
      else count (bHrt h) 0x408 t) s

/-- Whether source n of a hearth is a level source: grate sources 4 to 12, lane sources 0 to 3 (R210, R265). -/
def evIsLevel (n : Nat) : Bool :=
  if 0x100 ≤ n && n < 0x300 then decide (4 ≤ n % 16) && decide (n % 16 ≤ 12)
  else decide (0x300 ≤ n) && decide (n < 0x380) && decide (n % 8 ≤ 3)

/-- The level of grate source i: a FIFO's request, or the sequencer halted (R210). -/
def grateLevel (g i : Nat) (s : State) : Bool :=
  if 4 ≤ i && i ≤ 11 then fifoReq (8 * g + (i - 4)) s else i == 12 && !(grate g s).run

/-- Whether the level source n of hearth h asserts: its resource does and its slot carries it (R292), or the last
EVENT_SOURCE_LEVEL_CHANGE said so while the slot carries it. -/
def evLevelOn (h n : Nat) (s : State) : Bool :=
  if !evIsLevel n then false
  else if n < 0x300 then
    let k := (n - 0x100) / 16
    let w := rg (bHrt h) (0x20 + k) s
    bit w 15 && grateOwner (fld w 5 0) s / 8 == h &&
      (grateLevel (fld w 5 0) (n % 16) s || mget false (h * 1024 + n) s.evLevel)
  else
    let k := (n - 0x300) / 8
    let w := rg (bHrt h) (0x40 + k) s
    bit w 15 && ((lane (fld w 5 0) s).own.map fun f => f.toNat / 8) == some h &&
      (fifoReq (512 + 4 * fld w 5 0 + n % 8) s || mget false (h * 1024 + n) s.evLevel)

/-- Source n of hearth h is in service at some stoker. -/
def evInSvc (h n : Nat) (s : State) : Bool := evGet (bHrt h) 0x180 n s

/-- The host event that level source n of hearth h goes to since the last evaluation, 0 for none (R298, R301). -/
def evHostOf (h n : Nat) (s : State) : Nat := mget 0 (h * 1024 + n) s.evHost

/-- Source n of hearth h is pending (R293): a pending edge, or an asserted level not in service. A level that goes to the host
is not pending at the hearth, unless its enable bit gates it there (R298, R301). -/
def evPending (h n : Nat) (s : State) : Bool :=
  if evIsLevel n then
    evLevelOn h n s && !evInSvc h n s && (evHostOf h n s == 0 || (evTarget h n s == 64 && !evEn h n s))
  else evGet (bHrt h) 0x140 n s

/-- Pending edges routed to the host and enabled leave the hearth for the host (R298, R301). -/
def evForward (h : Nat) (s : State) : State :=
  forAll ((span 0 64).filter fun w => rg (bHrt h) (0x140 + w) s ≠ 0) (fun w t =>
    forAll (span (16 * w) 16) (fun n u =>
      if !evIsLevel n && evGet (bHrt h) 0x140 n u && evTarget h n u = 64 && evEn h n u then
        hevEdge (evHnum h n u) (evPut (bHrt h) 0x140 n false u)
      else u) t) s

/-- The level sources of a hearth. -/
def levelSources (s : State) (h : Nat) : List Nat :=
  ((span 0 32).filter fun k => bit (rg (bHrt h) (0x20 + k) s) 15).flatMap (fun k => span (0x104 + 16 * k) 9)
  ++ ((span 0 16).filter fun k => bit (rg (bHrt h) (0x40 + k) s) 15).flatMap (fun k => span (0x300 + 8 * k) 4)

/-- A hearth level that goes to host event e asserts, not in service at a stoker, with its enable bit set (R298, R301). -/
def hearthToHost (e : Nat) (s : State) : Bool :=
  (span 0 8).any fun h => (levelSources s h).any fun n =>
    evHostOf h n s == e && evEn h n s && evLevelOn h n s && !evInSvc h n s

/-- Where an evaluation sends the level sources of hearth h (R298): one routed to the host goes there unless it is in service
at a stoker; one that has gone to the host and still asserts stays there, though its route names a stoker now. -/
def evRoute (h : Nat) (s : State) : State :=
  (levelSources s h).foldl (fun t n =>
    let v := if evTarget h n t = 64 then (if evInSvc h n t then evHostOf h n t else evHnum h n t)
      else if evLevelOn h n t then evHostOf h n t else 0
    { t with evHost := mset 0 (h * 1024 + n) v t.evHost }) s

/-- The level of host event e (R300): a completion queue, hearth levels, safe state. -/
def hevLevelOn (e : Nat) (s : State) : Bool :=
  if 1 ≤ e && e ≤ 0x40 then (cq (e - 1) s).asserted
  else if e = 0xFF then s.safe.on
  else if 0x41 ≤ e && e ≤ 0xBF then hearthToHost e s
  else false

/-- Host event e is in service. -/
def hevInSvc (e : Nat) (s : State) : Bool := evGet 2 0x30 e s

/-- Host event e is pending (R300): an edge raised, or a level asserted and not in service. -/
def hevPending (e : Nat) (s : State) : Bool := evGet 2 0x20 e s || (hevLevelOn e s && !hevInSvc e s)

/-- HEV_CUR: the highest host event in service, or 0. -/
def hevCur (s : State) : Nat := ((span 1 255).filter fun e => hevInSvc e s).getLastD 0

/-- Number of host events in service. -/
def hevCount (s : State) : Nat := ((span 1 255).filter fun e => hevInSvc e s).length

/-- The highest pending and enabled host event, whatever is in service; 0 for none. -/
def hevTop (s : State) : Nat :=
  ((span 1 255).filter fun e => evGet 2 0x10 e s && hevPending e s).getLastD 0

/-- The highest host event that is pending, enabled, not in service and above HEV_CUR; 0 for none (R302, R303). -/
def hevNext (s : State) : Nat :=
  ((span 1 255).filter fun e =>
    evGet 2 0x10 e s && hevPending e s && !hevInSvc e s && decide (hevCur s < e)).getLastD 0

end Sys2Proof.Machine
end

