-- ==== Sys2Proof/Machine/Mem.lean ====
section
/-! DEFINITION. The word address map (R228 to R232), memory words with their error marks (R233 to R240), and the alias
windows of a requester (R229). Memory is a list of bytes by byte address, two a word, the high byte first (R10). -/
namespace Sys2Proof.Machine
open Sys2Proof

/-- What an address names for a requester: a memory word, a register, a flue window, or nothing. Deep-store offset o is
memory word 2^32 + o. -/
inductive Place where
  | mem (k : Nat)
  | reg (a : Nat)
  | flue (a : Nat)
  | unmapped
deriving DecidableEq, Repr

/-- What a byte that the list does not name reads as: 0 in the SRAMs (R233), nothing in GDDR6 (R240). -/
def memDflt (i : Nat) : Option Byte := if i < 0x40000000 then some 0 else none

/-- The byte at a byte address. -/
def getByte (i : Nat) : List Host.Cell → Option Byte
  | [] => memDflt i
  | (k, b) :: r => if k = i then some b else getByte i r

/-- Write a byte, keeping the canonical form. -/
def putByte (i : Nat) (b : Byte) (m : List Host.Cell) : List Host.Cell :=
  if memDflt i = some b then merase i m else mput i b m

/-- The canonical form of memory: byte addresses rise, and no entry equals what its address reads as unlisted. -/
def Memory.wf (m : List Host.Cell) : Bool :=
  keysAbove 0 m && m.all fun c => decide (memDflt c.1 ≠ some c.2)

/-- A memory word as its two bytes spell it, if both have a value. -/
def memWord (k : Nat) (s : State) : Option Word :=
  match getByte (2 * k) s.mem, getByte (2 * k + 1) s.mem with
  | some h, some l => some (h ++ l)
  | _, _ => none

/-- Store a memory word; a stored error of the word is gone (R234, R235). -/
def memPut (k : Nat) (w : Word) (s : State) : State :=
  { s with
    mem := putByte (2 * k + 1) (w.setWidth 8) (putByte (2 * k) ((w >>> 8).setWidth 8) s.mem)
    marks := merase k s.marks }

/-- Store consecutive words. -/
def memPuts (k : Nat) : List Word → State → State
  | [], s => s
  | w :: ws, s => memPuts (k + 1) ws (memPut k w s)

/-- The device of a GDDR6 linear offset (R232). -/
def gdDev (ecc : Bool) (l : Nat) : Nat := l / (if ecc then 0x3C000000 else 0x40000000)

/-- Inline ECC is on (GD_CTL.ECC_EN). -/
def eccOn (s : State) : Bool := bit (rg 9 0 s) 4

/-- First training is complete (GD_STAT.READY). -/
def gdReady (s : State) : Bool := bit (rg 9 1 s) 0

/-- An access to a memory word waits for the first training of the GDDR6 (R238). -/
def gdWaits (k : Nat) (s : State) : Bool := decide (0x20000000 ≤ k) && !gdReady s

/-- GDDR6 device d is retired (GD_STAT.DEV_RET). -/
def gdRet (d : Nat) (s : State) : Bool := bit (rg 9 1 s) (12 + d)

/-- Stove die d is retired (RET_DIE): its SRAM ranges are unmapped (R340). -/
def dieRet (d : Nat) (s : State) : Bool := bit (rg 6 0x100 s) d

/-- Hearth of an SRAM word address. -/
def sramHearth (a : Nat) : Nat :=
  if a < 0x11000000 then (a - 0x10000000) / 0x200000 else (a - 0x11000000) / 0x40000 / 8

/-- The deep store at offset o: its memory word (R231, R232). -/
def deepPlace (o : Nat) (s : State) : Place :=
  let l := (if eccOn s then 0x70000000 else 0x80000000) + o
  if 0x7FFFFFFF < o || gdRet (gdDev (eccOn s) l) s then .unmapped else .mem (2 ^ 32 + o)

/-- The flue window of a word address is mapped: VALID, and it names another device (R281). -/
def winOk (a : Nat) (s : State) : Bool :=
  let w := rg 0x14 (0x200 + 2 * ((a - 0x40000000) / 0x1000000)) s
  bit w 15 && fld w 11 0 != fld (rg 0xC 3 s) 11 0

/-- What a word address names for a requester with the given firebox and stoker (R228, R229). -/
def place (fb st : Option Nat) (a : Nat) (s : State) : Place :=
  let sram (x : Nat) : Place := if dieRet (sramHearth x / 2) s then .unmapped else .mem x
  if a < 0x40000 then
    (match fb with | some f => sram (0x11000000 + f * 0x40000 + a) | none => .unmapped)
  else if a < 0x50000 then
    (match st with | some k => .reg (ra (bStk k) (a - 0x40000)) | none => .unmapped)
  else if a < 0x10000000 then .unmapped
  else if a < 0x12000000 then sram a
  else if a < 0x20000000 then .unmapped
  else if a < 0x30000000 then .reg a
  else if a < 0x40000000 then .unmapped
  else if a < 0x80000000 then (if winOk a s then .flue a else .unmapped)
  else if (eccOn s && decide (0xF0000000 ≤ a)) || gdRet (gdDev (eccOn s) (a - 0x80000000)) s then .unmapped
  else .mem a

/-- What an address names for a subchannel's own accesses (R229). -/
def subPlace (sub a : Nat) (s : State) : Place := place (some (subFbx sub)) (some (stkOf sub)) a s

/-- Whether a memory word lies in SRAM. -/
def isSram (k : Nat) : Bool := decide (k < 0x20000000)

/-- Block index and offset of the memory control registers of an SRAM word: status at +1, CE_ADDR at +2, UE_ADDR at +4,
CE_CNT at +16, UE_CNT at +18. -/
def sramCtl (k : Nat) : Nat × Nat :=
  if k < 0x11000000 then (bHrt (sramHearth k), 0x800) else (bFbx ((k - 0x11000000) / 0x40000), 0)

/-- An SRAM read met a single-bit error: CE, CE_ADDR, CE_CNT, MEM_SRAM_CE (R234). -/
def sramCe (k : Nat) (s : State) : State :=
  let c := sramCtl k
  raise c.1 0 0 (count c.1 (c.2 + 0x10) (setRgs c.1 (c.2 + 2) (wordsOf 2 k) (setRgBit c.1 (c.2 + 1) 0 true s)))

/-- An SRAM read met an uncorrectable error: UE, UE_ADDR, UE_CNT, MEM_SRAM_UE (R235). -/
def sramUe (k : Nat) (s : State) : State :=
  let c := sramCtl k
  raise c.1 1 0 (count c.1 (c.2 + 0x12) (setRgs c.1 (c.2 + 4) (wordsOf 2 k) (setRgBit c.1 (c.2 + 1) 1 true s)))

/-- GD_ERR and GD_ERR_INFO of a failed GDDR6 access (R239): address or deep offset, device, kind. -/
def gdErr (k kind : Nat) (s : State) : State :=
  let deep := decide (2 ^ 32 ≤ k)
  let l := if deep then (if eccOn s then 0x70000000 else 0x80000000) + (k - 2 ^ 32) else k - 0x80000000
  setRg 9 5 (wd ((if deep then 0x8000 else 0) + gdDev (eccOn s) l * 4 + kind))
    (setRgs 9 3 (wordsOf 2 (k % 2 ^ 32)) s)

/-- The GDDR6 device of a memory word, as the unit a fault names. -/
def gdUnit (k : Nat) (s : State) : Word :=
  wd (gdDev (eccOn s) (if 2 ^ 32 ≤ k then (if eccOn s then 0x70000000 else 0x80000000) + (k - 2 ^ 32) else k - 0x80000000))

/-- The memory words of the aligned 16-word block of a GDDR6 word: they share a check word (R240). -/
def gdBlock (k : Nat) : List Nat := span (k / 16 * 16) 16

/-- Put an error mark on every word of the block of a GDDR6 word; 0 clears it. -/
def markBlock (k err : Nat) (s : State) : State :=
  { s with marks := (gdBlock k).foldl (fun m j => mset 0 j err m) s.marks }

/-- A GDDR6 access whose EDC retries are used up: GD_ERR, EDC_FAIL_CNT, GD_EDC_FAIL (R239). -/
def gdEdcFail (k : Nat) (s : State) : State :=
  raise 9 0 (gdUnit k s) (count 9 0x12 (countBy 9 0x10 (fld (rg 9 2 s) 3 0) (gdErr k 1 s)))

/-- The memory word at k as a read finds it; a GDDR6 word nothing has written since device reset is a free value
(R240). -/
def memGet (k : Nat) (s : State) : Word × State :=
  match memWord k s with
  | some w => (w, s)
  | none => freshWord s

/-- Read a memory word for a requester: the word, whether its error is uncorrectable, and the state with the error
recorded (R234, R235, R240). -/
def memRead (k : Nat) (s : State) : Word × Bool × State :=
  let m := mget 0 k s.marks
  let r := memGet k s
  if m = 0 then (r.1, false, r.2)
  else if isSram k then
    (if m = 1 then (r.1, false, sramCe k r.2) else (r.1, true, sramUe k r.2))
  else if !eccOn s then (r.1, false, r.2)
  else if m = 1 then
    (r.1, false, raise 9 3 (gdUnit k s) (count 9 0x14 (markBlock k 0 r.2)))
  else (r.1, true, raise 9 1 (gdUnit k s) (count 9 0x16 (gdErr k 2 r.2)))

/-- A read by the bellows ahead of a program (R85, R235): an uncorrectable error is counted and reports nothing. -/
def memReadQuiet (k : Nat) (s : State) : Word × Bool × State :=
  let r := memGet k s
  let c := sramCtl k
  if mget 0 k s.marks = 2 && (isSram k || eccOn s) then
    (r.1, true, if isSram k then count c.1 (c.2 + 0x12) r.2 else count 9 0x16 r.2)
  else memRead k s

/-- The read-modify-write that a write of fewer than 16 words of a GDDR6 block is inside the controller with inline ECC
(R240): its read corrects the block, or finds it uncorrectable, which is reported. -/
def rmwBlock (ks : List Nat) (k : Nat) (s : State) : State :=
  let m := (gdBlock k).foldl (fun a j => max a (mget 0 j s.marks)) 0
  if m = 0 || (gdBlock k).all (fun j => ks.contains j) then s
  else if m = 1 then raise 9 3 (gdUnit k s) (count 9 0x14 (markBlock k 0 s))
  else raise 9 1 (gdUnit k s) (count 9 0x16 (gdErr k 2 s))

/-- What a write of these memory words does beside storing them. -/
def rmwBlocks (ks : List Nat) (s : State) : State :=
  if !eccOn s then s
  else forAll ((ks.filter fun k => !isSram k).map fun k => k / 16 * 16).eraseDups (rmwBlock ks) s

/-- One write of words to memory. -/
def memStore (kws : List (Nat × Word)) (s : State) : State :=
  kws.foldl (fun t kw => memPut kw.1 kw.2 t) (rmwBlocks (kws.map fun kw => kw.1) s)

/-- Read n consecutive words: the words, whether any error is uncorrectable, the state. -/
def memReads (k : Nat) : Nat → State → List Word × Bool × State
  | 0, s => ([], false, s)
  | n + 1, s =>
    let a := memRead k s
    let b := memReads (k + 1) n a.2.2
    (a.1 :: b.1, a.2.1 || b.2.1, b.2.2)

/-- What the read of memory word k finds now: 1 a single-bit error, 2 an uncorrectable one, 3 a GDDR6 burst whose EDC never
matches, 4 one whose EDC matches at the first retry. Marks the word, or answers that the burst failed. In GDDR6 with inline
ECC off, 1 is as 4 and 2 as 3 (R239). `quiet`: the read is a speculative path's (R85). -/
def upset (quiet : Bool) (k err : Nat) (s : State) : Bool × State :=
  let n := fld (rg 9 2 s) 3 0
  let once := err = 4 || (err = 1 && !eccOn s)
  if err = 0 || 4 < err || (isSram k && 2 < err) then (false, s)
  else if isSram k then (false, { s with marks := mset 0 k err s.marks })
  else if err = 3 || (err = 2 && !eccOn s) || (once && n = 0) then
    (true, if quiet then count 9 0x12 (countBy 9 0x10 n s) else gdEdcFail k s)
  else if once then (false, count 9 0x10 s)
  else (false, markBlock k err s)

/-- A write of words meets EDC mismatches in GDDR6 (R239): 1 one that the first retry mends, counted; 2 or more, and 1 with
EDC_RETRY 0, one that none does: the words hold values that nothing fixes. Whether the write failed. -/
def edcStore (kws : List (Nat × Word)) (err : Nat) (s : State) : Bool × State :=
  match kws.find? fun kw => !isSram kw.1 with
  | none => (false, memStore kws s)
  | some kw =>
    if err = 0 then (false, memStore kws s)
    else if err = 1 && fld (rg 9 2 s) 3 0 != 0 then (false, memStore kws (count 9 0x10 s))
    else
      (true, kws.foldl (fun t x => let r := freshWord t; memPut x.1 r.1 r.2) (gdEdcFail kw.1 s))

/-- Whether every address of a run is memory for a requester; the words' memory keys. -/
def placeRun (fb st : Option Nat) (a : Nat) : Nat → State → Option (List Nat)
  | 0, _ => some []
  | n + 1, s =>
    match place fb st (a % 2 ^ 32) s with
    | .mem k => (placeRun fb st (a + 1) n s).map fun ks => k :: ks
    | _ => none

/-- Read the words at a list of memory keys. -/
def memReadKeys : List Nat → State → List Word × Bool × State
  | [], s => ([], false, s)
  | k :: ks, s =>
    let a := memRead k s
    let b := memReadKeys ks a.2.2
    (a.1 :: b.1, a.2.1 || b.2.1, b.2.2)

end Sys2Proof.Machine
end

