-- ==== Sys2Proof/Machine/Pins.lean ====
section
/-! DEFINITION. Pin outputs and what the ball shows (R189, R195, R217, R218, R225, R340), fire-queue discards (R193),
stopping a sequencer (R204), soot records (R347), and entry to safe state (R224, R225, R343). -/
namespace Sys2Proof.Machine
open Sys2Proof

/-- The fender level of device pin p: 0 HIGHZ, 1 LOW, 2 HIGH, 3 HOLD. -/
def fender (p : Nat) (s : State) : Nat := fld (rg 0xA (0x400 + p / 8) s) (15 - 2 * (p % 8)) (14 - 2 * (p % 8))

/-- PIN_CFG of device pin p. -/
def pinCfg (p : Nat) (s : State) : Word := rg (bGrt (p / 16)) (0x10 + p % 16) s

/-- The pin is open-drain. -/
def pinOd (p : Nat) (s : State) : Bool := bit (pinCfg p s) 13

/-- Device pin p is retired (RET_PIN). -/
def pinRetired (p : Nat) (s : State) : Bool := bit (rg 6 (0x140 + p / 16) s) (p % 16)

/-- What an act drives on a pin: none for high impedance. An open-drain pin never drives high (R189, R218). -/
def actDrive (p act : Nat) (s : State) : Option Bool :=
  if act = 0 then some false else if act = 1 && !pinOd p s then some true else none

/-- What a fender level drives on a pin (R225). -/
def fenderDrive (p : Nat) (s : State) : Option Bool :=
  if fender p s = 1 then some false else if fender p s = 2 && !pinOd p s then some true else none

/-- Whether rule r, tripped, forces pin p (R217, R218). -/
def ruleForces (p : Nat) (r : Rule) (s : State) : Bool :=
  r.tripped && fld (nth r.w 3) 5 0 == p / 16 && bit (nth r.w 4) (p % 16) &&
    (fld (nth r.w 0) 11 10 == 0 || (fld (nth r.w 0) 11 10 == 1 && fender p s ≠ 3))

/-- What the lowest-numbered tripped rule on the pin drives, if any rule forces it (R218). -/
def ruleForce (p : Nat) (s : State) : Option (Option Bool) :=
  (s.rules.find? fun kr => ruleForces p kr.2 s).map fun kr =>
    if fld (nth kr.2.w 0) 11 10 = 1 then fenderDrive p s else actDrive p (fld (nth kr.2.w 0) 9 8) s

/-- The damper or safe state forces the ball of pin p (PIN_STAT.FORCED). -/
def pinForced (p : Nat) (s : State) : Bool := (s.safe.on && fender p s ≠ 3) || (ruleForce p s).isSome

/-- Pins of the set that MSEL selects (R195). -/
def dirSet (msel : Nat) : List Nat :=
  if msel = 0 then span 0 8 else if msel = 1 then span 8 8 else if msel = 2 then span 0 16 else span (4 * (msel - 3)) 4

/-- LEAD in gc of pin p: the largest of the direction pins in mode 1 whose set holds it (R195). -/
def pinLead (p : Nat) (s : State) : Nat :=
  ((span 0 4).map fun k =>
    let c := rg (bGrt (p / 16)) (4 + k) s
    if fld c 15 14 = 1 && (dirSet (fld c 2 0)).contains (p % 16) then fld c 10 7 else 0).foldl max 0

/-- The bit of a running CHO or SHO that stands on pin p now (R208): the sequencer drives each bit for BT gc, unless another
write has replaced the state since that bit began. -/
def choBit (p : Nat) (s : State) : Option Bool :=
  match (grate (p / 16) s).hold with
  | some (.cho q frame since bt _) =>
    let i := (s.ft.dtb - since) / bt
    if q.toNat = p % 16 && decide (((pin p s).lastAct.getD 0) / 16 ≤ since + i * bt) && !(s.safe.on && fender p s == 3) then
      some (frame.getD (min i (frame.length - 1)) true)
    else none
  | _ => none

/-- What the output state of the pin drives (R189). -/
def stateDrive (p : Nat) (s : State) : Option Bool :=
  match choBit p s with
  | some v => if v && pinOd p s then none else some v
  | none => if (pin p s).oe then (if (pin p s).out && pinOd p s then none else some (pin p s).out) else none

/-- What the output state drives at the ball: an enable is delayed by LEAD (R195). -/
def padDrive (p : Nat) (s : State) : Option Bool := if s.ft.dtb < (pin p s).oeAt then none else stateDrive p s

/-- What the device drives at the ball of pin p: none for high impedance (R218, R225, R340). -/
def ballDrive (p : Nat) (s : State) : Option Bool :=
  if s.safe.on && fender p s ≠ 3 then fenderDrive p s
  else match ruleForce p s with
    | some d => d
    | none => if pinRetired p s then (if fender p s = 3 then none else fenderDrive p s) else padDrive p s

/-- An act of a source (0 sequencer, 1 PINW, 2 fire queue) on the output state of a pin at fine-step time t (R189). In one gc
a later source's act stands; a pin whose fender level is HOLD is frozen in safe state (R225). An enable reaches the ball
LEAD gc later (R195), and the readback check passes to the new state (R339). -/
def pinAct (p act t src : Nat) (s : State) : State :=
  let q := pin p s
  if (q.lastAct.map fun l => l / 16) == some (t / 16) && decide (src < q.lastBy) then s
  else if s.safe.on && fender p s == 3 then s
  else
    let on := act == 0 || (act == 1 && !pinOd p s)
    let s1 := modPin p (fun q => { q with
      out := if act = 2 then q.out else act == 1
      oe := on
      lastAct := some t
      lastBy := src
      oeAt := if on && !q.oe then (if pinLead p s = 0 then 0 else t / 16 + pinLead p s) else q.oeAt
      offAt := if q.oe && !on then some (t / 16) else q.offAt }) s
    modPin p (fun q => { q with
      check := if pinForced p s1 || pinRetired p s1 then none else stateDrive p s1 }) s1

/-- Discard the unfired fire-queue entries that a test picks; a write still on its way is no entry yet (R191, R193). -/
def fqDiscard (f : FqEntry → Bool) (s : State) : State :=
  forAll (s.pins.map fun kp => kp.1) (fun p => modPin p fun q => { q with
    fq := q.fq.filter fun e => !f e }) s

/-- Discard the unfired entries of a subchannel, all or only the tentative ones (R77, R78, R193). -/
def fqDiscardSub (sub : Nat) (tentOnly : Bool) (s : State) : State :=
  fqDiscard (fun e => e.sub == some sub && (e.tent || !tentOnly)) s

/-- A character or shift cut off on a pin leaves the line at the bit it had reached: a free value. -/
def seqCut (g : Nat) (h : Option Hold) (s : State) : State :=
  match h with
  | some (.cho p _ _ _ _) =>
    let a := freshWord s
    modPin (16 * g + p.toNat) (fun q => { q with out := bit a.1 0, check := none }) a.2
  | _ => s

/-- The microword that holds is over: the K registers written meanwhile take effect (R204). -/
def endHold (g : Nat) (s : State) : State :=
  modGrate g (fun x => { x with hold := none, kPend := [] })
    ((grate g s).kPend.foldl (fun t kv => setRg (bGrt g) (0x310 + kv.1) kv.2 t) s)

/-- SQ_CTL.STOP: the sequencer halts at its next boundary; a wait or character ends at once (R204). -/
def seqStop (g : Nat) (s : State) : State :=
  if !(grate g s).run then s
  else modGrate g (fun q => { q with run := false }) (endHold g (seqCut g (grate g s).hold s))

/-- A record enters the soot queue, or is dropped, counted and raises FC_SOOT_LOST unless it is that source's own
(R347). -/
def sootAdd (w0 w1 : Word) (own : Bool) (s : State) : State :=
  if s.fc.soot.length < 16 then
    { s with fc := { s.fc with soot := s.fc.soot ++ [{ w0 := w0, w1 := w1, dtb := s.ft.dtb }] } }
  else if own then s
  else raise 6 0 0 (count 6 0x52 s)

/-- A safe-state cause leaves its sticky bit in DMP_STAT (R224): 1 SAFE_N, 2 rule, 3 L5; timebase loss is kept in the
power state. -/
def safeSticky (cause : Nat) (s : State) : State :=
  if cause = 1 then setRgBit 0xA 1 3 true s
  else if cause = 2 then setRgBit 0xA 1 2 true s
  else if cause = 3 then setRgBit 0xA 1 1 true s
  else s

/-- Entry to safe state with a cause and, for cause 2, the rule (R224, R225, R343): sequencers stop, fire queues empty, a
soot record of KIND 5. -/
def safeEnter (cause : Nat) (r : Option Nat) (s : State) : State :=
  let s0 := safeSticky cause s
  if s0.safe.on then s0 else
  let s1 := { s0 with safe := { s0.safe with on := true, cause := cause, rule := r } }
  let s2 := forAll (s1.grates.map fun kg => kg.1) seqStop s1
  let s3 := fqDiscard (fun _ => true) s2
  sootAdd (wd cause) 0x500A false s3

end Sys2Proof.Machine
end

