-- ==== Sys2Proof/Machine/Cq.lean ====
section
/-! DEFINITION. Completion queues (R324 to R328): room, the write of a completion entry, the moderation round, and MSI-X
messages (R268, R328). -/
namespace Sys2Proof.Machine
open Sys2Proof

/-- Register offset of word i of the MSI-X pending array that holds vector v, and its bit (R268, PCI Express layout). -/
def pbaPos (v : Nat) : Nat × Nat := (0x1400 + v / 16, (if v / 8 % 2 = 0 then 8 else 0) + v % 8)

/-- MSI-X vector v cannot be sent now: masked, in D3hot, or Bus Master Enable or MSI-X Enable is 0 (R266, R268, R328). -/
def msixHeld (v : Nat) (s : State) : Bool :=
  s.bulk.fnMask || s.bulk.d3 || !s.bulk.bme || !s.bulk.msixEn || bit (rg 0xB (0x1000 + 8 * v + 6) s) 8

/-- The value of words in host byte order, the first byte least significant (R268). -/
def hostVal : List Word → Nat
  | [] => 0
  | w :: ws => w.toNat / 256 + w.toNat % 256 * 256 + 65536 * hostVal ws

/-- The message of MSI-X vector v: address and data of its table entry (R268). -/
def msixMsg (v : Nat) (s : State) : MsixMsg :=
  { vec := v
    addr := BitVec.ofNat 64 (hostVal ((span (0x1000 + 8 * v) 4).map fun o => rg 0xB o s))
    data := BitVec.ofNat 32 (hostVal ((span (0x1004 + 8 * v) 2).map fun o => rg 0xB o s)) }

/-- Send MSI-X vector v, or set its pending bit (R328). -/
def msixSend (v : Nat) (s : State) : State :=
  let p := pbaPos v
  if msixHeld v s then setRgBit 0xB p.1 p.2 true s
  else { s with bulk := { s.bulk with msix := s.bulk.msix ++ [msixMsg v s] } }

/-- Send every pending vector that is no longer held (R328). -/
def msixRelease (s : State) : State :=
  forAll (span 0 65) (fun v t =>
    let p := pbaPos v
    if bit (rg 0xB p.1 t) p.2 && !msixHeld v t then msixSend v (setRgBit 0xB p.1 p.2 false t) else t) s

/-- Register offset of completion queue n. -/
def cqOfs (n : Nat) : Nat := 0x800 + 16 * n
/-- CQ_CTL. -/
def cqCtl (n : Nat) (s : State) : Word := rg 1 (cqOfs n) s
/-- The queue is enabled and initialised. -/
def cqOpen (n : Nat) (s : State) : Bool := bit (cqCtl n s) 15 && (cq n s).ready
/-- Entries of the ring. -/
def cqSize (n : Nat) (s : State) : Nat := 2 ^ fld (cqCtl n s) 12 8
/-- Word address of entry i of the ring. -/
def cqAddr (n i : Nat) (s : State) : Nat := rgs 1 (cqOfs n + 1) 2 s + 16 * i
/-- CQ_PI. -/
def cqPi (n : Nat) (s : State) : Nat := (rg 1 (cqOfs n + 7) s).toNat

/-- The word at a global address as the host interface reads it; none where it is no memory or was never written. -/
def peekWord (a : Nat) (s : State) : Option Word :=
  match place none none a s with
  | .mem k => memWord k s
  | _ => none

/-- Write words at a global address that is memory; elsewhere nothing is written. -/
def pokeWords (a : Nat) : List Word → State → State
  | [], s => s
  | w :: ws, s => pokeWords (a + 1) ws (match place none none a s with | .mem k => memStore [(k, w)] s | _ => s)

/-- The entry at CQ_PI is the device's (R325). A ring the device cannot read counts as full. -/
def cqRoom (n : Nat) (s : State) : Bool :=
  cqOpen n s && (match peekWord (cqAddr n (cqPi n s) s) s with | some w => bit w 15 | none => false)

/-- DSEQ and HSEQ run from 1 to 0xFFFF and wrap to 1 (R321, R326). -/
def seqNext (w : Word) : Word := if w = 0xFFFF then 1 else w + 1

/-- The words SB0 to SB6 of a status (R80). -/
def statusBlock (st : Status) : List Word :=
  [st.dstatX ++ st.dstat, st.cstat, st.resid, wordOf 2 0 st.lastCcw.toNat, wordOf 2 1 st.lastCcw.toNat,
   wd (st.endc * 8192 + (if st.late then 4096 else 0) + st.opres.toNat * 256 + st.pcode.toNat), st.aux]

/-- ASSERT of queue n (R327). -/
def cqAssert (n : Nat) (s : State) : Bool :=
  let q := cq n s
  decide (fld (rg 1 (cqOfs n + 3) s) 7 0 ≤ q.round) || q.timerExp ||
    (rg 1 (cqOfs n + 4) s == 0 && decide (0 < q.round))

/-- Sample ASSERT; a rise sends the queue's MSI-X vector when CQ_CTL.MSIX is 1 (R327, R328). -/
def cqSample (n : Nat) (s : State) : State :=
  let a := cqAssert n s
  let s1 := modCq n (fun q => { q with asserted := a }) s
  if a && !(cq n s).asserted && bit (cqCtl n s) 14 then msixSend n s1 else s1

/-- Write a completion entry at CQ_PI: w1 to w15, then w0 with OWN = 0; DSEQ and CQ_PI advance, the post counts and joins
the round (R324 to R327). SUBCH is 25 bits, [31:25] of its pair 0 (R4). -/
def cqWrite (n : Nat) (st : Status) (s : State) : State :=
  let a := cqAddr n (cqPi n s) s
  let dseq := rg 1 (cqOfs n + 5) s
  let dev := (fld (rg 0xC 3 s) 11 0) * 8192 + st.subch.toNat % 8192
  let subch := if st.kind = 1 then st.subch.toNat % 2 ^ 25 else dev
  let s1 := pokeWords (a + 1) ([dseq, st.hseq] ++ wordsOf 2 subch ++ statusBlock st ++ wordsOf 4 st.dtb) s
  let s2 := pokeWords a [wd (st.kind * 4096)] s1
  let s3 := setRg 1 (cqOfs n + 5) (seqNext dseq) (setRg 1 (cqOfs n + 7) (wd ((cqPi n s + 1) % cqSize n s)) s2)
  let s4 := count 1 (cqOfs n + 10) s3
  let s5 := modCq n (fun q => { q with
    round := min 65535 (q.round + 1)
    timerOn := q.timerOn || (q.round == 0 && rg 1 (cqOfs n + 4) s != 0)
    sinceClaim := if hevInSvc (n + 1) s then q.sinceClaim + 1 else q.sinceClaim }) s4
  cqSample n s5

end Sys2Proof.Machine
end

