-- ==== Sys2Proof/Machine/Program.lean ====
section
/-! DEFINITION. Contexts and the choice of the next one (R110 to R113), statuses (R80 to R82), program ends and aborts
(R75 to R79), the bellows' squash and confirmation (R94 to R106), and the channel steps that make CCWs current and chain
them (R53 to R73). -/
namespace Sys2Proof.Machine
open Sys2Proof

/-! ### A subchannel's registers and paths -/

/-- Offset of register i of the subchannel block of a context (R45). -/
def schOfs (sub i : Nat) : Nat := 0x600 + 0x20 * ctxOf sub + i
/-- Subchannel register i. -/
def schReg (sub i : Nat) (s : State) : Word := rg (bStk (stkOf sub)) (schOfs sub i) s
/-- Count in a subchannel counter. -/
def schCount (sub i : Nat) (s : State) : State := count (bStk (stkOf sub)) (schOfs sub i) s
/-- Offset of register i of a context's bellows block (R108). -/
def blwOfs (sub i : Nat) : Nat := 0x800 + 0x10 * ctxOf sub + i
/-- Count in a bellows counter. -/
def blwCount (sub i m : Nat) (s : State) : State := countBy (bStk (stkOf sub)) (blwOfs sub i) m s

/-- W0 of path n. -/
def pathW (sub n : Nat) (s : State) : Word := schReg sub (8 + 2 * n) s
/-- Path n exists. -/
def pathValid (sub n : Nat) (s : State) : Bool := bit (pathW sub n s) 15
/-- Path n exists and is in service. -/
def pathUp (sub n : Nat) (s : State) : Bool := bit (pathW sub n s) 15 && bit (pathW sub n s) 14
/-- The subchannel has some valid path (R52). -/
def anyPath (sub : Nat) (s : State) : Bool := (span 0 4).any fun n => pathValid sub n s
/-- The lowest-numbered path in service. -/
def lowPath (sub : Nat) (s : State) : Option Nat := (span 0 4).find? fun n => pathUp sub n s
/-- Subchannel register i as it is in force for the current CCW: as it stood when that CCW became current (R46). -/
def schCfg (sub i : Nat) (s : State) : Word :=
  match (sch sub s).cfg with
  | [] => schReg sub i s
  | ws => nth ws (i - 1)
/-- The registers a CCW that becomes current takes with it (R46). -/
def cfgNow (sub : Nat) (s : State) : List Word := (span 1 15).map fun i => schReg sub i s
/-- W0 of path n in force for the current CCW; INSVC is as it is now. -/
def pathEff (sub n : Nat) (s : State) : Word := (schCfg sub (8 + 2 * n) s &&& 0xBFFF) ||| (pathW sub n s &&& 0x4000)
/-- The current CCW's subchannel has some valid path. -/
def anyPathEff (sub : Nat) (s : State) : Bool := (span 0 4).any fun n => bit (pathEff sub n s) 15

/-- The path in use goes through this grate or lane. -/
def usesRes (sub : Nat) (isLane : Bool) (num : Nat) (s : State) : Bool :=
  let w := pathEff sub (sch sub s).curPath.toNat s
  bit w 15 && bit w 14 && bit w 13 == isLane && fld w 5 0 == num

/-- A program is start-pending, active, suspended or halted. -/
def hasProgram (x : SchSt) : Bool :=
  x == .startPending || x == .active || x == .suspended || x == .halted

/-- An intermediate status is held (SCH_STATE.IHELD, R82). -/
def iheld (sub : Nat) (s : State) : Bool := (sch sub s).held.any fun x => x.endc == 2 || x.endc == 3 || x.endc == 5

/-- The speculative path of a stoker, if context c owns one. -/
def specOf (sub : Nat) (s : State) : Option Spec :=
  match (stk (stkOf sub) s).spec with
  | some p => if p.owner = ctxOf sub then some p else none
  | none => none

/-- The subchannel's stoker works on its speculative path. -/
def onPath (sub : Nat) (s : State) : Bool := (specOf sub s).isSome

/-! ### Scheduling -/

/-- Stoker k lies in a unit that is in reset: itself, its firebox, hearth or stove die (R341). -/
def stkInReset (k : Nat) (s : State) : Bool :=
  s.fc.inReset.any fun u => u == (1, k) || u == (2, k / 8) || u == (3, k / 64) || u == (4, k / 128)

/-- Stoker k is retired (RET_STK, R340). -/
def stkRetired (k : Nat) (s : State) : Bool := bit (rg 6 (0x110 + k / 16) s) (15 - k % 16)

/-- Stoker k is held in reset by STK_CTL.HOLD. -/
def stkHeld (k : Nat) (s : State) : Bool := bit (rg (bStk k) 0 s) 0

/-- The stoker may run contexts: not in reset or retired, and the device not in safe state (R341, R340, R343). -/
def stkRuns (k : Nat) (s : State) : Bool :=
  booted s && !s.safe.on && !stkHeld k s && !stkInReset k s && !stkRetired k s

/-- Context c of stoker k is READY. -/
def isReady (k c : Nat) (s : State) : Bool := (ctx (16 * k + c) s).run == .ready
/-- Context c of stoker k yielded after MORE (R70). -/
def isYielded (k c : Nat) (s : State) : Bool := (sch (16 * k + c) s).phase == .yielded
/-- BG_MASK bit of context c. -/
def bgBit (k c : Nat) (s : State) : Bool := bit (rg (bStk k) 0x402 s) c

/-- The context a free stoker chooses (R111, R70): the window owner, then background contexts round-robin; a background
context that yielded after MORE only when no other may run, a window owner that did so after another has had the stoker. -/
def pick (k : Nat) (s : State) : Option Nat :=
  let st := stk k s
  let own (y : Bool) : Option Nat :=
    match st.window with
    | some w => if isReady k w s && (isYielded k w s && !(sch (16 * k + w) s).gave) == y then some w else none
    | none => none
  let bgs (y : Bool) : Option Nat :=
    ((span 1 16).map fun i => (st.bg + i) % 16).find? fun c => isReady k c s && bgBit k c s && isYielded k c s == y
  (own false).orElse fun _ => (bgs false).orElse fun _ => (own true).orElse fun _ => bgs true

/-- Write a trace record for a happening of a context (R138): kind, PC concerned, DATA. A record the ring cannot take is
dropped and counted. -/
def trace (sub kind : Nat) (pc data : Nat) (s : State) : State :=
  let b := bStk (stkOf sub)
  let ctl := rg b 0x10 s
  if !bit ctl 0 || !bit (rg b 0x11 s) (ctxOf sub) || (kind == 4 && !bit ctl 1) || ((kind == 6 || kind == 7) && !bit ctl 2)
  then s else
  let size := 2 ^ fld (rg 8 0x102 s) 4 0
  let base := rgs 8 0x100 2 s / size * size
  let wp := rgs 8 0x104 2 s % size
  let ws := [wd (kind * 4096 + ctxOf sub * 256 + pc / 65536 % 256), wd pc] ++ wordsOf 4 s.ft.dtb ++ wordsOf 2 data
  match place none none (base + wp) s with
  | .mem k =>
    if isSram k || !gdReady s then raise 8 0 0 (count b 0x12 s)
    else setRgs 8 0x104 (wordsOf 2 ((wp + 8) % size)) (memStore ((span k ws.length).zip ws) s)
  | _ => raise 8 0 0 (count b 0x12 s)

/-- PC of a context, as a number. -/
def pcOf (sub : Nat) (s : State) : Nat := (ctx sub s).pc.toNat

/-- Loop-back at the sequential next address (R160): the top entries that end there. -/
def loopBack (next : BitVec 24) : List LoopEnt → BitVec 24 × List LoopEnt
  | [] => (next, [])
  | l :: ls =>
    if l.le ≠ next then (next, l :: ls)
    else if 2 ≤ l.lc.toNat then (l.ls, { l with lc := l.lc - 1 } :: ls)
    else loopBack next ls

/-- Count an instruction: committed ones, and those of the speculative path. -/
def countInstr (sub : Nat) (s : State) : State :=
  if onPath sub s then modStk (stkOf sub) (fun x => { x with spec := x.spec.map fun p => { p with instrs := p.instrs + 1 } }) s
  else count (bStk (stkOf sub)) 8 s

/-- A WAIT completes when its context is chosen again (R129): counted, and the PC moves on. -/
def waitEnd (sub : Nat) (s : State) : State :=
  match (ctx sub s).waitNext with
  | none => s
  | some next =>
    countInstr sub (modCtx sub (fun c =>
      let go := loopBack next c.loops
      { c with pc := go.1, loops := go.2, waitNext := none }) s)

/-- Contexts of the stoker that yielded after MORE have given way to another (R70). -/
def gaveWay (k c : Nat) (s : State) : State :=
  forAll ((span 0 16).filter fun n => n != c && isYielded k n s) (fun n => modSch (16 * k + n) fun x => { x with gave := true }) s

/-- A context takes the free stoker: it is RUNNING, a switch is counted and traced when another held the stoker before
(R112, R138), and a waiting channel step follows (R109). -/
def takeStoker (k c : Nat) (s : State) : State :=
  let st := stk k s
  let bgRun := st.window != some c
  let s1 := modStk k (fun x => { x with cur := some c, last := some c, bg := if bgRun then c else x.bg }) (gaveWay k c s)
  let s2 := modCtx (16 * k + c) (fun x => { x with run := .running }) s1
  let s3 := if st.last.isSome && st.last != some c then
      trace (16 * k + c) 8 (pcOf (16 * k + c) s) c (count (bStk k) 0xC s2) else s2
  addDue (.turn (16 * k + c)) s3

/-- A counter of stoker cycles: the spec fixes what it counts and no rule gives the cycles, so it takes a free increment. -/
def countFree (n ofs : Nat) (s : State) : State :=
  let r := freshWord s
  countBy n ofs r.1.toNat r.2

/-- A context leaves STALLED: STALL_SC_CNT takes the cycles it spent there. -/
def stallTime (sub : Nat) (s : State) : State :=
  if (ctx sub s).run == .stalled then countFree (bStk (stkOf sub)) 0xA s else s

/-- The running context of a stoker that a boundary displaces: READY, or LONGSTALL while a stall lasts. -/
def displace (k c : Nat) (s : State) : State :=
  modStk k (fun x => { x with cur := none })
    (modCtx (16 * k + c) (fun x => { x with
      run := if x.run == .running then .ready else if x.run == .stalled then .longstall else x.run })
      (stallTime (16 * k + c) s))

/-- The stoker chooses a context when it is free, and the window owner displaces a background context (R111). -/
def resched (k : Nat) (s : State) : State :=
  let st := stk k s
  let holds : Bool := match st.cur with
    | some c => (ctx (16 * k + c) s).run == .running || (ctx (16 * k + c) s).run == .stalled
    | none => false
  let s0 := if holds then
      (match st.cur, st.window with
       | some c, some w => if c ≠ w && isReady k w s && !isYielded k w s && stkRuns k s then displace k c s else s
       | _, _ => s)
    else modStk k (fun x => { x with cur := none }) s
  if (stk k s0).cur.isSome || !stkRuns k s0 then s0
  else match pick k s0 with
    | some c => takeStoker k c s0
    | none => s0

/-- Put a context into a run state and let its stoker choose. A context stopped by debug control stays STOPPED, but for a
pending STEP (R137). -/
def setRun (sub : Nat) (r : Run) (s : State) : State :=
  addDue (.resched (stkOf sub))
    (modCtx sub (fun x =>
      if x.stopped && !(x.step1 && r == .ready) then { x with run := .stopped } else { x with run := r, stopped := false }) s)

/-- A context stopped by debug control has run its one instruction (R137). -/
def stepDone (sub : Nat) (s : State) : State :=
  if !(ctx sub s).step1 then s
  else
    let s1 := modCtx sub (fun x => { x with step1 := false, stopped := true }) s
    let s2 := setRgBit (bStk (stkOf sub)) (0x301 + 4 * ctxOf sub) 1 false s1
    if (ctx sub s2).stall == .none then setRun sub .stopped s2 else s2

/-- The context has a channel step to perform in its own turn (R109). -/
def setStep (sub : Nat) (c : ChStep) (s : State) : State :=
  let s1 := modSch sub (fun x => { x with phase := .step c }) s
  if (ctx sub s).run == .running then addDue (.turn sub) s1 else setRun sub .ready s1

/-- The context keeps the stoker on a short stall or finds no other to run, else releases it (R112). -/
def stallRun (sub : Nat) (long : Bool) (s : State) : State :=
  let k := stkOf sub
  let s1 := modCtx sub (fun x => { x with run := .longstall }) s
  if long && (pick k s1).isSome then addDue (.resched k) s1
  else modCtx sub (fun x => { x with run := .stalled }) s

/-- A stall of the context ends: it goes on when it holds the stoker, else it becomes READY (R112). -/
def unstall (sub : Nat) (s : State) : State :=
  if (ctx sub s).run == .stalled then
    let t := stallTime sub s
    if (ctx sub s).stopped then setRun sub .stopped (modCtx sub (fun x => { x with stall := .none }) t)
    else modCtx sub (fun x => { x with run := .running, stall := .none }) t
  else if (ctx sub s).run == .longstall then
    setRun sub .ready (modCtx sub (fun x => { x with stall := .none }) s)
  else modCtx sub (fun x => { x with stall := .none }) s

/-! ### Statuses -/

/-- A status of the subchannel composed now (R80). -/
def mkStatus (sub endc : Nat) (dstat : Byte) (cstat resid : Word) (pcode dstatX : Byte) (aux : Word) (s : State) :
    Status :=
  let x := sch sub s
  { kind := 0, dstatX := dstatX, dstat := if x.attn then dstat ||| 0x20 else dstat, cstat := cstat, resid := resid,
    lastCcw := x.ccw, endc := endc, late := x.late, pcode := pcode, aux := aux, hseq := x.hseq,
    subch := BitVec.ofNat 32 sub, dtb := s.ft.dtb, cq := fld (schCfg sub 4 s) 5 0 }

/-- Hand a composed status to its completion queue (R82, R325): it posts when it is first and there is room, else it is
held and counted. -/
def offer (sub : Nat) (st : Status) (s : State) : State :=
  let n := st.cq
  let s1 := modSch sub (fun x => { x with held := x.held ++ [st] }) s
  let s2 := modCq n (fun q => { q with waiting := q.waiting ++ [.sub sub] }) s1
  if (cq n s).waiting.isEmpty && cqRoom n s then addDue (.post n) s2
  else count 1 (cqOfs n + 12) (schCount sub 0x1A s2)

/-- Offer an intermediate status that no held one delays. -/
def offerMid (sub endc : Nat) (resid : Word) (aux : Word) (s : State) : State :=
  offer sub (mkStatus sub endc (sch sub s).lastDstat 0 resid 0 0 aux s) s

/-- After a held status of the subchannel has posted (R51, R82). -/
def afterPost (sub : Nat) (st : Status) (s : State) : State :=
  if st.endc = 2 || st.endc = 3 || st.endc = 5 then
    let x := sch sub s
    if x.pathLater then
      let s1 := modSch sub (fun y => { y with pathLater := false }) s
      let s2 := offerMid sub 5 x.lastResid x.lastAux s1
      (match x.phase with | .step _ => setRun sub .ready s2 | _ => s2)
    else if x.suspLater then
      offerMid sub 3 x.lastResid x.lastAux (modSch sub (fun y => { y with suspLater := false }) s)
    else match x.phase with
      | .heldWait t => setStep sub (.held t) s
      | _ => s
  else if (sch sub s).st == .statusPending then
    modSch sub (fun x => { x with st := .idle }) s
  else s

/-- Post the first waiting status of completion queue n, if it is a subchannel's and the entry at CQ_PI is the device's
(R325). A work queue's answer that waits first is posted with its entry (R322). -/
def postFirst (n : Nat) (s : State) : State :=
  match (cq n s).waiting with
  | .sub sub :: rest =>
    (match (sch sub s).held with
     | [] => addDue (.post n) (modCq n (fun q => { q with waiting := rest }) s)
     | st :: more =>
       if st.cq = n && cqRoom n s then
         let s1 := modCq n (fun q => { q with waiting := rest }) (cqWrite n st s)
         addDue (.post n) (afterPost sub st (modSch sub (fun x => { x with held := more }) s1))
       else s)
  | _ => s

/-! ### Events in service and draught channels -/

/-- The controller of the stoker's hearth has event n in service at stoker k: its claim has arrived and its EVDONE has not. -/
def stkHolds (k n : Nat) (s : State) : Bool :=
  let x := stk k s
  (x.insvc.any (fun e => e.1 == n) || x.dones.contains n) && !x.claims.contains n

/-- Some stoker of hearth h holds event n in service. -/
def heldInHearth (h n : Nat) (s : State) : Bool := s.stk.any fun ks => hrtOf ks.1 == h && stkHolds ks.1 n s

/-- Event n leaves service at the controller of hearth h when no stoker holds it (R296). -/
def hearthDone (h n : Nat) (s : State) : State :=
  if heldInHearth h n s then s else evPut (bHrt h) 0x180 n false s

/-- Every event that a context claimed, or every event when c is none, is completed as if by EVDONE (R78, R297). One whose
claim is on its way completes behind its claim. -/
def doneEvents (k : Nat) (c : Option Nat) (s : State) : State :=
  let x := stk k s
  let gone := (x.insvc.filter fun e => c.isNone || some e.2 == c).map fun e => e.1
  let s1 := modStk k (fun x => { x with
    insvc := x.insvc.filter fun e => !(c.isNone || some e.2 == c)
    dones := x.dones ++ gone.filter fun n => x.claims.contains n }) s
  forAll (gone.filter fun n => !x.claims.contains n) (hearthDone (hrtOf k)) s1

/-- The event of draught channel k (R253). -/
def drEvent (k : Nat) (s : State) : State := evEdge (k / 16 / 8) (0x80 + k % 128) s

/-- The channel is RUN, WAIT or STOPPING. -/
def chBusy (c : Chan) : Bool := c.st == .run || c.st == .wait || c.st == .stopping

/-- The FIFO a channel works on: that of its binding, or of its descriptor. -/
def chFifoAny (c : Chan) : Option Nat :=
  match c.fifo with
  | some f => some (FifoId.idx f)
  | none => descFifo c.desc

/-- The FIFO a busy channel works on. -/
def chFifo (c : Chan) : Option Nat := if chBusy c then chFifoAny c else none

/-- The burst in hand gives its reservation up. -/
def chRelease (k : Nat) (s : State) : State :=
  let s1 := modChan k (fun c => { c with burst := none, got := [], carry := [], carryEop := false }) s
  match chFifoAny (chan k s) with
  | some f => if (chan k s).burst.isSome then modFifo f (fun q => { q with rsv := 0, rsvFree := 0 }) s1 else s1
  | none => s1

/-- A channel enters STOPPED: it unbinds and raises its event (R251, R253). -/
def chStopped (k : Nat) (s : State) : State :=
  drEvent k (modChan k (fun c => { c with
    st := .stopped, bound := none, fifo := none, stopReq := false, fetching := false, seg := none
    part := c.bound.isNone && (if c.fetching then c.part else c.left != 0) }) (chRelease k s))

/-- The channel is at a descriptor boundary or waits for a FIFO's reservation: a descriptor fetch is outstanding, or it has
a FIFO side and no burst in flight (R251). -/
def chIdle (c : Chan) : Bool := c.fetching || (c.burst.isNone && (c.bound.isSome || fld (nth c.desc 0) 15 12 != 0))

/-- STOP, HALT or an abort reaches a channel: it stops at once when it waits, else at the next descriptor boundary
(R251). A bound channel runs the segment in hand to its end. -/
def chStop (k : Nat) (s : State) : State :=
  let c := chan k s
  if !chBusy c then s
  else if chIdle c then chStopped k s
  else modChan k (fun c => { c with
    st := .stopping, stopReq := true
    seg := match c.seg, c.bound with
      | some g, _ => some g
      | none, some sub =>
        let x := sch sub s
        some { addr := x.curAddr.toNat, odd := x.curOdd, cnt := x.curCnt, more := x.more, cw := x.words }
      | none, none => none }) s

/-- The channels bound to a subchannel stop (R77, R78). -/
def stopBound (sub : Nat) (s : State) : State :=
  forAll ((s.chans.filter fun kc => kc.2.bound == some sub).map fun kc => kc.1) chStop s

/-! ### The bellows: squash and confirmation -/

/-- Undo a speculative path (R105): checkpoint restored, stores and tentative entries gone, counters; words pushed before the
path are on their way as before. DESIGN CHOICE (log 92): only a miss empties the lookahead buffer. -/
def squash (sub : Nat) (s : State) : State :=
  match specOf sub s with
  | none => s
  | some p =>
    let s1 := modStk (stkOf sub) (fun x => { x with spec := none }) { s with loads := merase sub s.loads }
    let s2 := modCtx sub (fun x => { p.ckpt with
      posted := x.posted, drain := x.drain, pushes := x.pushes, stopped := x.stopped, step1 := x.step1, ovrRun := x.ovrRun,
      waitc := x.waitc, run := x.run }) s1
    let s3 := fqDiscardSub sub true s2
    let s4 := countFree (bStk (stkOf sub)) (blwOfs sub 0xE) (blwCount sub 0x8 1 s3)
    setRun sub .inactive s4

/-- The lookahead buffer is emptied; a miss counts when it held any CCW (R105). -/
def lookMiss (sub : Nat) (s : State) : State :=
  let s1 := if (sch sub s).look.isEmpty then s else blwCount sub 0xC 1 s
  modSch sub (fun x => { x with look := [], prefetch := [] }) s1

/-! ### Program ends -/

/-- Grates and lanes learn that the target's program has ended (R209, R263). -/
def targetOver (sub : Nat) (s : State) : State :=
  let s1 := forAll ((s.grates.filter fun kg => kg.2.tgt == some sub).map fun kg => kg.1)
    (fun g => modGrate g fun x => { x with tgtOver := true }) s
  forAll ((s1.lanes.filter fun kl => kl.2.post == some sub).map fun kl => kl.1)
    (fun l => modLane l fun x => { x with tgtOver := true }) s1

/-- The program is over and this is its final status (R51, R82). The context is INACTIVE. -/
def finish (sub : Nat) (st : Status) (s : State) : State :=
  let s1 := targetOver sub s
  let s2 := modSch sub (fun x => { x with
    st := if x.st == .retired then .retired else .statusPending
    phase := .none, haltReq := false, pathReq := false, pfReq := false, pathLater := false, suspLater := false
    dcFetch := none, advLeft := 0, look := [], prefetch := [], noSpec := false, cfg := [] }) s1
  let s3 := modCtx sub (fun x => { x with stall := .none, waitEv := false, waitTk := false, waitNext := none, got := [] })
    { s2 with
      loads := merase sub s2.loads
      outst := s2.outst.filter fun kv => match kv.2 with
        | .load n _ _ | .atom n _ _ | .prefetch n _ _ => n != sub
        | _ => true }
  offer sub st (setRun sub .inactive s3)

/-- IFCHK where the path in use has reported a path fault that no return has taken (R81). -/
def pfBit (sub : Nat) (s : State) : Word := if (sch sub s).pfReq then 0x40 else 0

/-- End the program with a final status of the last return (R58, R82). -/
def endProgram (sub endc : Nat) (dstat : Byte) (cstat resid : Word) (pcode : Byte) (aux : Word) (s : State) : State :=
  finish sub (mkStatus sub endc dstat (cstat ||| pfBit sub s) resid pcode 0 aux s) s

/-- What an abort does before the status (R78): a stall ends, the path is squashed, channels stop, fire-queue entries go, events are
completed. -/
def abortWork (sub : Nat) (s : State) : State :=
  let s1 := modCtx sub (fun x => { x with waitc := if x.run == .wait && (x.waitEv || x.waitTk) then 3 else x.waitc }) (squash sub (stallTime sub s))
  doneEvents (stkOf sub) (some (ctxOf sub)) (fqDiscardSub sub false (stopBound sub s1))

/-- An abort (R78): the residual is SCH_CUR_CNT. -/
def abortWith (sub : Nat) (cstat resid : Word) (pcode dstatX : Byte) (aux : Word) (s : State) : State :=
  let s1 := abortWork sub s
  finish sub (mkStatus sub 0 (sch sub s1).lastDstat (cstat ||| pfBit sub s1) resid pcode dstatX aux s1) s1

/-- Abort of a running program with residual SCH_CUR_CNT; nothing where no program runs. -/
def abort (sub : Nat) (cstat : Word) (pcode dstatX : Byte) (aux : Word) (s : State) : State :=
  if hasProgram (sch sub s).st then abortWith sub cstat (wd (sch sub s).curCnt) pcode dstatX aux s else s

end Sys2Proof.Machine
end

