-- ==== Sys2Proof/Machine/Chaining.lean ====
section
/-! DEFINITION. Channel steps: the fields of a CCW (R53), program checks (R83), making a CCW current (R56), internal
commands (R54), the timed rule (R71), procedure entry (R68), chaining decisions (R58), suspension (R72), path changes
(R75) and the data cursor (R60 to R65). -/
namespace Sys2Proof.Machine
open Sys2Proof

/-! ### CCW fields -/

/-- CODE of a CCW. -/
def wCode (ws : List Word) : Nat := fld (nth ws 0) 15 8
/-- A flag bit of a CCW: 7 TIMED, 6 SUSP, 5 FEV, 4 IDA, 3 SKIP, 2 RESOK, 1 CD, 0 CC. -/
def wFlag (ws : List Word) (i : Nat) : Bool := bit (nth ws 0) i
/-- COUNT. -/
def wCount (ws : List Word) : Nat := (nth ws 1).toNat
/-- DADDR. -/
def wDaddr (ws : List Word) : Nat := valOf [nth ws 2, nth ws 3]
/-- AMODE: 0 increment, 1 fixed, 2 circular. -/
def wAmode (ws : List Word) : Nat := fld (nth ws 4) 15 14
/-- CSIZE. -/
def wCsize (ws : List Word) : Nat := fld (nth ws 4) 13 10
/-- TOFF. -/
def wToff (ws : List Word) : Nat := valOf [nth ws 5, nth ws 6]
/-- PPARM. -/
def wPparm (ws : List Word) : Word := nth ws 7
/-- A procedure code. -/
def wProc (ws : List Word) : Bool := decide (0x10 ≤ wCode ws)

/-- The command table entry is valid: VALID, a DIR that is not reserved, reserved bits 0 (R67). -/
def entOk (e : Word × Word) : Bool := bit e.1 15 && fld e.1 14 13 != 3 && fld e.1 10 8 == 0
/-- DIR of an entry: 0 control, 1 input, 2 output. -/
def entDir (e : Word × Word) : Nat := fld e.1 14 13
/-- Entry address of an entry. -/
def entPc (e : Word × Word) : Nat := fld e.1 7 0 * 65536 + e.2.toNat

/-- Word address of the command table entry of a code. -/
def cmdAddr (sub code : Nat) (s : State) : Nat := valOf [schReg sub 2 s, schReg sub 3 s] + 2 * code

/-- An address a subchannel's CCWs, IDA lists and command tables may lie at (R63). -/
def ctlOk (sub a : Nat) (s : State) : Bool := match subPlace sub (a % 2 ^ 32) s with | .mem _ => true | _ => false

/-- An address data may lie at (R63): memory or a flue window. -/
def dataOk (sub a : Nat) (s : State) : Bool :=
  match subPlace sub (a % 2 ^ 32) s with
  | .mem _ => true
  | .flue _ => true
  | _ => false

/-- Read n words at an address of a subchannel that is memory; `ahead`: the bellows reads them (R235). -/
def subReadsBy (ahead : Bool) (sub a : Nat) : Nat → State → List Word × Bool × State
  | 0, s => ([], false, s)
  | n + 1, s =>
    match subPlace sub (a % 2 ^ 32) s with
    | .mem k =>
      let r := if ahead then memReadQuiet k s else memRead k s
      let q := subReadsBy ahead sub (a + 1) n r.2.2
      (r.1 :: q.1, r.2.1 || q.2.1, q.2.2)
    | _ =>
      let q := subReadsBy ahead sub (a + 1) n s
      (0 :: q.1, q.2.1, q.2.2)

/-- Read n words at an address of a subchannel that is memory. -/
def subReads (sub a n : Nat) (s : State) : List Word × Bool × State := subReadsBy false sub a n s

/-- The program check or PROTCHK of a CCW about to become current, if any, in the order of R83, with its CSTAT bits. `ent`
is the command table entry of a procedure code whose address R63 allows. -/
def progCheck (ws : List Word) (dataChain afterTic listOk tableOk : Bool) (ent : Word × Word) : Option (Word × Byte) :=
  let c := wCode ws
  let p := wProc ws
  let ok := p && tableOk && entOk ent
  let chk (b : Bool) (n : Nat) (rest : Option (Word × Byte)) : Option (Word × Byte) :=
    if b then some (0x400, BitVec.ofNat 8 n) else rest
  chk (c == 1 && wDaddr ws % 8 != 0) 0x01 <|
  chk (c == 0) 0x02 <|
  chk (decide (6 ≤ c) && decide (c ≤ 15)) 0x03 <|
  chk (c == 1 && fld (nth ws 0) 7 0 != 0) 0x04 <|
  chk (c == 1 && afterTic) 0x05 <|
  chk (c != 1 && wFlag ws 1 && wFlag ws 0) 0x06 <|
  chk (p && wAmode ws == 3) 0x07 <|
  chk (p && wAmode ws == 2 && decide (wCsize ws < 4)) 0x08 <|
  chk (p && (fld (nth ws 4) 9 0 != 0 || (wAmode ws != 2 && wCsize ws != 0))) 0x09 <|
  chk (ok && wCount ws == 0 && !bit ent.1 12) 0x0A <|
  chk (p && wFlag ws 4 && wAmode ws != 0) 0x0B <|
  chk (p && wFlag ws 4 && wDaddr ws % 2 != 0) 0x0C <|
  chk (ok && wFlag ws 3 && entDir ent != 1) 0x0D <|
  chk (dataChain && (wFlag ws 6 || wFlag ws 7)) 0x0E <|
  chk (decide (2 ≤ c) && decide (c ≤ 5) && (wFlag ws 1 || wFlag ws 3 || wFlag ws 4 || (c == 3 && wFlag ws 7))) 0x0F <|
  if p && ((wFlag ws 4 && !listOk) || !tableOk) then some (0x200, 0) else
  chk (p && !entOk ent) 0x10 <|
  chk (p && wFlag ws 1 && entDir ent == 0) 0x11 none

/-- RESID of a CCW that moved no data for want of a procedure entry (R392). -/
def idleResid (ws : List Word) : Word := if wProc ws then nth ws 1 else 0

/-! ### The data cursor -/

/-- The words of a segment of n bytes. -/
def segWords (n : Nat) : Nat := (n + 1) / 2

/-- Open the first segment of the current CCW (R60 to R63); the reason where it fails. DEDUCED (log 86): a control procedure's
CCW and one with COUNT 0 have no segment, so their data address is not checked. -/
def openSeg (sub : Nat) (s : State) : Option (Word × Byte) × State :=
  let x := sch sub s
  let ws := x.words
  let n := wCount ws
  let a := wDaddr ws
  let put (a' n' more ptr : Nat) (t : State) : State := modSch sub (fun y => { y with
    curAddr := BitVec.ofNat 32 a', curOdd := false, curCnt := n', more := more, idaPtr := BitVec.ofNat 32 ptr }) t
  let ctl := match x.entry with | some e => entDir e == 0 | none => false
  if n = 0 || ctl then (none, put a n 0 0 s)
  else if wFlag ws 4 then
    let r := subReads sub a 2 s
    let e := valOf r.1
    let m := min n (2 * (1024 - e % 1024))
    if r.2.1 then (some (0x80, 0), put a 0 n 0 r.2.2)
    else if !dataOk sub e r.2.2 then (some (0x200, 0), put e 0 n 0 r.2.2)
    else (none, put e m (n - m) (a + 2) r.2.2)
  else
    let blk := 2 ^ wCsize ws
    let lo := if wAmode ws = 2 then a / blk * blk else a
    let hi := if wAmode ws = 2 then lo + blk - 1 else if wAmode ws = 1 then a else a + segWords n - 1
    if dataOk sub lo s && dataOk sub hi s then (none, put a n 0 0 s) else (some (0x200, 0), put a n 0 0 s)

/-- Open the next IDA entry's segment (R62, R63). -/
def nextIda (sub : Nat) (s : State) : Option (Word × Byte) × State :=
  let x := sch sub s
  if !ctlOk sub x.idaPtr.toNat s then (some (0x200, 0), s) else
  let r := subReads sub x.idaPtr.toNat 2 s
  let e := valOf r.1
  let m := min x.more 2048
  if r.2.1 then (some (0x80, 0), r.2.2)
  else if e % 1024 ≠ 0 then (some (0x400, 0x0C), r.2.2)
  else if !dataOk sub e r.2.2 then (some (0x200, 0), r.2.2)
  else (none, modSch sub (fun y => { y with
    curAddr := BitVec.ofNat 32 e, curOdd := false, curCnt := m, more := y.more - m, idaPtr := y.idaPtr + 2 }) r.2.2)

/-- Move the cursor by n bytes within the current segment (R61); moving clears the runaway count (R57). -/
def curMove (sub n : Nat) (s : State) : State :=
  modSch sub (fun x =>
    let pos := b2n x.curOdd + n
    let a := x.curAddr.toNat
    let blk := 2 ^ wCsize x.words
    let a' := if wAmode x.words = 1 then a
      else if wAmode x.words = 2 then a / blk * blk + (a % blk + pos / 2) % blk
      else a + pos / 2
    { x with
      curAddr := BitVec.ofNat 32 a', curOdd := pos % 2 == 1, curCnt := x.curCnt - n
      runaway := if n = 0 then x.runaway else 0 }) s

/-! ### Ends that a channel step finds -/

/-- A step fails: by abort inside a running procedure entry (R78), else with the residual of R392. -/
def failStep (sub : Nat) (running : Bool) (why : Word × Byte) (resid : Word) (s : State) : State :=
  if running then
    abortWith sub why.1 (wd ((sch sub s).curCnt + (if why.1 = 0x400 && why.2 = 0x0C || why.1 = 0x200 then (sch sub s).more else 0)))
      why.2 0 (sch sub s).lastAux s
  else endProgram sub 0 (sch sub s).lastDstat why.1 resid why.2 (sch sub s).lastAux s

/-- HALT takes effect at a boundary (R77). -/
def endHalted (sub : Nat) (dstat : Byte) (cstat : Word) (resid : Word) (s : State) : State :=
  endProgram sub 1 dstat cstat resid 0 (sch sub s).lastAux (stopBound sub (fqDiscardSub sub true s))

/-! ### Fetches -/

/-- A CCW fetch is outstanding; the context waits as on a load (R107, R112). -/
def startFetch (sub : Nat) (f : FetchInfo) (s : State) : State :=
  let own := match subPlace sub f.addr.toNat s with
    | .mem k => decide (0x11000000 ≤ k) && (sramCtl k).1 == bFbx (subFbx sub)
    | _ => false
  stallRun sub (!own) (modSch sub (fun x => { x with phase := .fetch f, look := [], prefetch := [] }) s)

/-- The head of the lookahead buffer, where it is the CCW wanted and need not be fetched again (R88). -/
def lookHead (sub : Nat) (f : FetchInfo) (s : State) : Option LookCcw :=
  match (sch sub s).look with
  | c :: _ => if c.addr = f.addr && !f.refetch && !wFlag c.words 6 then some c else none
  | [] => none

/-- Go to a CCW (R56, R63): HALT first, then the address check, then the lookahead buffer or a fetch. DESIGN CHOICE (log 85):
RESID is 0 where the CCW at an address that R63 refuses could not be fetched. -/
def doGoto (sub : Nat) (f : FetchInfo) (s : State) : State :=
  if (sch sub s).haltReq then endHalted sub 0 0 (sch sub s).lastResid s
  else if !ctlOk sub f.addr.toNat s then
    failStep sub false (0x200, 0) 0 (modSch sub (fun x => { x with ccw := f.addr }) s)
  else match lookHead sub f s with
    | some c => setStep sub (.arrived f c.words false) (modSch sub (fun x => { x with look := x.look.drop 1 }) s)
    | none => startFetch sub f s

/-- The command table entry of a CCW; whether its address is allowed and whether the read failed. `ahead`: the bellows reads
it (R235). -/
def readEntryBy (ahead : Bool) (sub : Nat) (ws : List Word) (s : State) : (Word × Word) × Bool × Bool × State :=
  if !wProc ws then ((0, 0), true, false, s)
  else
    let a := cmdAddr sub (wCode ws) s
    if ctlOk sub a s then
      let r := subReadsBy ahead sub a 2 s
      ((nth r.1 0, nth r.1 1), true, r.2.1, r.2.2)
    else ((0, 0), false, false, s)

/-- The command table entry of the arrived CCW, read now (R46). -/
def readEntry (sub : Nat) (ws : List Word) (s : State) : (Word × Word) × Bool × Bool × State :=
  readEntryBy false sub ws s

/-- Compose the FEV status (R56 step 4, R82): true when the program must wait for the held one. -/
def doFev (sub : Nat) (s : State) : Bool × State :=
  let x := sch sub s
  if !wFlag x.words 5 then (false, s)
  else if !iheld sub s then (false, offerMid sub 2 (idleResid x.words) x.lastAux s)
  else if x.held.any (fun h => h.endc == 3 || h.endc == 5) then (true, s)
  else (false, modSch sub (fun y => { y with
    held := y.held.map fun h => if h.endc == 2 then { h with lastCcw := y.ccw } else h }) s)

/-! ### Procedure entry -/

/-- Set data register n of a context. -/
def putR (n : Nat) (v : Word) (c : Ctx) : Ctx := { c with r := mset 0 n v c.r }

/-- The registers of a procedure entry (R68): a function of the CCW, its address, the path words, E0 and D1. -/
def entryRegs (ws : List Word) (ccw : W32) (d1 d3 d4 : Word) (d5 : Nat) (e0 : Nat) (pc : Nat) (c : Ctx) : Ctx :=
  let c1 := putR 0 (nth ws 0) (putR 1 d1 (putR 2 (wPparm ws) (putR 3 d3 (putR 4 d4 (putR 5 (wd d5) c)))))
  let c2 := putR 0x19 (nth ws 2) (putR 0x11 (nth ws 3) (putR 0x1A (wordOf 2 0 ccw.toNat) (putR 0x12 (wordOf 2 1 ccw.toNat) c1)))
  let abs := mget 0 0x1C c2.r
  let c3 := putR 0x1C (setFld (setFld abs 3 2 1) 5 4 2) c2
  let c4 := putR 0x1D (mget 0 0x1D c3.r &&& 0xFFF0) c3
  { c4 with e := mset 0 0 (BitVec.ofNat 64 e0) c4.e, pc := BitVec.ofNat 24 pc, rep := none, repEnd := 0 }

/-- D3 and D4 of a procedure entry (R52, R68). -/
def entryPath (sub : Nat) (s : State) : Word × Word :=
  if !anyPathEff sub s then (0x1000, 0)
  else
    let n := (sch sub s).curPath.toNat
    let w := pathEff sub n s
    (wd (n * 16384 + b2n (bit w 13) * 8192 + fld w 5 0), schCfg sub (9 + 2 * n) s)

/-- E0 of a procedure entry: T_c when TIMED, else the DTB (R68). -/
def entryE0 (sub : Nat) (s : State) : Nat :=
  if wFlag (sch sub s).words 7 then (sch sub s).tc else s.ft.dtb

/-- Enter the current CCW's procedure (R68). -/
def enterProc (sub d5 : Nat) (s : State) : State :=
  let x := sch sub s
  let p := entryPath sub s
  let d1 := if d5 = 1 then x.lastResid else nth x.words 1
  let pc := match x.entry with | some e => entPc e | none => 0
  let s1 := modCtx sub (entryRegs x.words x.ccw d1 p.1 p.2 d5 (entryE0 sub s) pc) s
  let s2 := modSch sub (fun y => { y with phase := .proc, d5 := 0 }) s1
  trace sub 1 pc x.ccw.toNat s2

/-- Open the current CCW's segment and enter its procedure. A segment of 0 bytes is exhausted at once (R64). -/
def enterFirst (sub : Nat) (s : State) : State :=
  let r := openSeg sub s
  match r.1 with
  | some why => failStep sub false why (nth (sch sub s).words 1) r.2
  | none =>
    let s1 := enterProc sub (sch sub r.2).d5 r.2
    if (sch sub s1).curCnt = 0 && wFlag (sch sub s1).words 1 then addDue (.advance sub) s1 else s1

/-! ### Execution of the current CCW -/

/-- The context waits with nothing to do on the stoker. -/
def idleAs (sub : Nat) (p : Phase) (s : State) : State :=
  setRun sub .inactive (modSch sub (fun x => { x with phase := p }) s)

/-- A timed wait or a TICK-WAIT begins; a HALT that waits ends it at once (R77). -/
def waitAs (sub : Nat) (p : Phase) (s : State) : State :=
  if (sch sub s).haltReq then endHalted sub 0 0 (sch sub s).lastResid s else idleAs sub p s

/-- An internal command ends with DONE and these added DSTAT bits (R54). -/
def endInternal (sub : Nat) (add : Byte) (s : State) : State :=
  setStep sub (.ret (0x80 ||| add) false false) (modSch sub (fun x => { x with lastResid := 0 }) s)

/-- Step 6 of R56 for a CCW that starts no data chain. -/
def doExec (sub : Nat) (s : State) : State :=
  let x := sch sub s
  let ws := x.words
  let c := wCode ws
  if c = 1 then
    setStep sub (.goto { addr := BitVec.ofNat 32 (wDaddr ws), tic := some x.ccw }) s
  else if c = 2 then
    (if wFlag ws 7 && decide (s.ft.dtb < x.tc) then waitAs sub .timed s else endInternal sub 0 s)
  else if c = 3 then waitAs sub .tickWait s
  else if c = 4 then
    let dev := wDaddr ws / 8192 % 4096
    let other := wDaddr ws % 8192
    let s1 := idleAs sub .remote s
    if dev = fld (rg 0xC 3 s) 11 0 then addDue (.resume sub other) s1 else addDue (.remoteResume sub dev other) s1
  else if c = 5 then
    (if !wFlag ws 0 then endInternal sub 0 (modSch sub (fun y => { y with lastAux := wPparm ws }) s)
     else if iheld sub s then idleAs sub (.heldWait .post) s
     else endInternal sub 0 (offerMid sub 2 0 (wPparm ws) (modSch sub (fun y => { y with lastAux := wPparm ws }) s)))
  else enterFirst sub s

/-- Step 5 of R56: the timed rule (R71), then step 6. -/
def doPerform (sub : Nat) (s : State) : State :=
  let ws := (sch sub s).words
  if !wFlag ws 7 || wCode ws = 1 then doExec sub s
  else
    let tc := (sch sub s).tickRef + wToff ws
    let lead := 8 * (schCfg sub 7 s).toNat
    let s1 := modSch sub (fun x => { x with tc := tc }) s
    if s.ft.dtb + lead < tc then waitAs sub .timed s1
    else if s.ft.dtb ≤ tc then doExec sub s1
    else
      let s2 := schCount sub 0x1E (modSch sub (fun x => { x with late := true }) s1)
      if bit (schCfg sub 1 s) 0 then
        setStep sub (.ret 0x80 false false) (modSch sub (fun x => { x with lastResid := idleResid x.words, lateEnd := true }) s2)
      else doExec sub s2

/-- A CCW with SUSP suspends the subchannel, or a pending RESUME refetches it (R72). -/
def doSuspend (sub : Nat) (s : State) : State :=
  let x := sch sub s
  if x.resumePend then
    setStep sub (.goto { addr := x.ccw, refetch := true }) (modSch sub (fun y => { y with resumePend := false, look := [] }) s)
  else
    let s1 := idleAs sub .none (modSch sub (fun y => { y with st := .suspended, look := [], prefetch := [] }) s)
    if !bit (schCfg sub 1 s) 1 then s1
    else if iheld sub s then modSch sub (fun y => { y with suspLater := true }) s1
    else offerMid sub 3 (idleResid x.words) x.lastAux s1

/-- The words of a CCW arrive and it becomes current (R56): runaway, program checks, SUSP, FEV, and on to step 5. -/
def doArrived (sub : Nat) (f : FetchInfo) (ws : List Word) (bad : Bool) (s : State) : State :=
  if (sch sub s).haltReq then endHalted sub 0 0 (sch sub s).lastResid s else
  let back := ((sch sub s).d5 == 2 || (sch sub s).d5 == 3) && f.addr == (sch sub s).first
  let s1 := modSch sub (fun x => { x with
    ccw := if wCode ws = 1 && f.tic.isSome then f.tic.getD f.addr else f.addr
    first := f.addr, words := ws, tmoTicks := 0, runaway := x.runaway + 1, lateEnd := false
    cfg := cfgNow sub s, tickRef := s.ft.tickDtb, lastResid := if bad then 0 else idleResid ws
    prefetch := if x.preFor = f.addr then x.prefetch else []
    retries := if back then x.retries else 0 }) s
  if bad then failStep sub false (0x80, 0) 0 s1
  else if (rg (bStk (stkOf sub)) 0x408 s1).toNat < (sch sub s1).runaway then
    failStep sub false (0x400, 0x12) (idleResid ws) s1
  else
    let r := readEntry sub ws s1
    let listOk := !wFlag ws 4 || ctlOk sub (wDaddr ws) r.2.2.2
    if r.2.2.1 then failStep sub false (0x80, 0) (idleResid ws) r.2.2.2
    else match progCheck ws false f.tic.isSome listOk r.2.1 r.1 with
      | some why => failStep sub false why (idleResid ws) r.2.2.2
      | none =>
        let s2 := modSch sub (fun x => { x with entry := if wProc ws then some r.1 else none }) r.2.2.2
        if wFlag ws 6 && wCode ws ≠ 1 then doSuspend sub s2
        else
          let v := doFev sub s2
          if v.1 then idleAs sub (.heldWait .fev) v.2 else doPerform sub v.2

/-! ### Returns -/

/-- The path in use moves to the lowest in service. -/
def movePath (sub : Nat) (s : State) : State :=
  modSch sub (fun x => { x with curPath := BitVec.ofNat 2 ((lowPath sub s).getD 0) }) s

/-- The path change of R75: CUR_PATH moves, a PATH status is composed now or when the held one posts. -/
def pathChange (sub : Nat) (s : State) : State :=
  let s1 := modSch sub (fun x => { x with pathReq := false }) (movePath sub s)
  if iheld sub s1 then modSch sub (fun x => { x with pathLater := true }) s1
  else offerMid sub 5 (sch sub s1).lastResid (sch sub s1).lastAux s1

/-- The cursor is to be rewound to the first CCW of the data chain: a fetch of a later CCW and bytes still to advance go
(R58, R75). -/
def rewind (sub : Nat) (s : State) : State := modSch sub (fun x => { x with dcFetch := none, advLeft := 0 }) s

/-- BLW_PRED predicts a skip (R86). -/
def predSkip (sub : Nat) (s : State) : Bool := decide (2 ≤ fld (rg (bStk (stkOf sub)) (blwOfs sub 0) s) 1 0)

/-- Update the prediction counter at row 7 or row 8 of a procedure CCW with CC (R87). -/
def predUpdate (sub : Nat) (skip : Bool) (s : State) : State :=
  let v := fld (rg (bStk (stkOf sub)) (blwOfs sub 0) s) 1 0
  setRg (bStk (stkOf sub)) (blwOfs sub 0) (wd (if skip then min 3 (v + 1) else v - 1)) s

/-- Row 7 or 8 of R58: the CCW at current + 8 or + 16 becomes current; the lookahead is kept where the prediction held
(R103, R105). -/
def chainNext (sub : Nat) (skip : Bool) (s : State) : State :=
  let x := sch sub s
  let proc := wProc x.words
  let s1 := if proc && skip != predSkip sub s then lookMiss sub s else s
  let s2 := if proc then predUpdate sub skip s1 else s1
  let s3 := modSch sub (fun y => { y with d5 := 0 }) s2
  setStep sub (.goto { addr := x.ccw + (if skip then 16 else 8) }) s3

/-- The chaining decision of R58 for a return with DSTAT, CSTAT bits and the residual last returned. -/
def chain (sub : Nat) (d : Byte) (cstat : Word) (s : State) : State :=
  let x := sch sub s
  let fin (c : Word) (pc : Byte) (t : State) : State := endProgram sub 0 d c x.lastResid pc x.lastAux (lookMiss sub t)
  let done := bit d 7 && !bit d 0
  if cstat ≠ 0 then fin cstat 0 s
  else if bit d 2 && bit d 1 && decide (x.retries < fld (schCfg sub 5 s) 3 0) then
    setStep sub (.goto { addr := x.first })
      (schCount sub 0x1C (modSch sub (fun y => { y with retries := y.retries + 1, d5 := 2 }) (rewind sub (lookMiss sub s))))
  else if bit d 2 || bit d 3 || bit d 4 then fin 0 0 s
  else if bit d 0 && !bit d 7 then
    setRun sub .ready (modSch sub (fun y => { y with phase := .yielded, gave := false }) (lookMiss sub s))
  else if done && x.lastResid ≠ 0 && !wFlag x.words 2 && !x.lateEnd then fin 0x10 0 s
  else if done && (wFlag x.words 1 || !wFlag x.words 0) then fin 0 0 s
  else if done then chainNext sub (bit d 6) s
  else fin 0x400 0x13 s

/-- A return reaches the channel (R58, R75, R77): a waiting HALT first, then a waiting path change, then the chaining
decision. -/
def doRet (sub : Nat) (d : Byte) (pf : Bool) (s : State) : State :=
  let cstat : Word := if pf || (sch sub s).pfReq then 0x40 else 0
  let s1 := modSch sub (fun x => { x with lastDstat := d, attn := x.attn || bit d 5 }) s
  if (sch sub s1).haltReq then
    endHalted sub d cstat (sch sub s1).lastResid (if (sch sub s1).pathReq then movePath sub s1 else s1)
  else if (sch sub s1).pathReq then
    let s2 := pathChange sub (lookMiss sub s1)
    setStep sub (.goto { addr := (sch sub s2).first }) (modSch sub (fun x => { x with d5 := 3, pfReq := false }) (rewind sub s2))
  else chain sub d cstat s1

/-- An invalid return ends the program with check 0x13 (R69, R92). -/
def doInvalid (sub : Nat) (d : Byte) (s : State) : State :=
  let s1 := modSch sub (fun x => { x with lastDstat := d, attn := x.attn || bit d 5 }) s
  endProgram sub 0 d 0x400 (sch sub s1).lastResid 0x13 (sch sub s1).lastAux (lookMiss sub s1)

/-! ### Confirmation of a speculative path (R104) -/

/-- A pin's fire queue when a path's tentative entries in it are confirmed: each takes the place of a committed entry with
its time (R190), and how many it displaced. -/
def confirmFq (sub : Nat) (q : List FqEntry) : List FqEntry × Nat :=
  let mine (e : FqEntry) : Bool := e.tent && e.sub == some sub
  let times := (q.filter mine).map fun e => e.time
  let kept := q.filter fun e => e.tent || !times.contains e.time
  (kept.map fun e => if mine e then { e with tent := false } else e, q.length - kept.length)

/-- The confirmed path's tentative entries fire when their time comes (R104). -/
def confirmTents (sub : Nat) (s : State) : State :=
  forAll (s.pins.map fun kp => kp.1) (fun p t =>
    let r := confirmFq sub (pin p t).fq
    doIf (decide (0 < r.2)) (countBy (bGrt (p / 16)) 0x404 r.2)
      (modPin p (fun q => { q with
        fq := r.1
        flying := q.flying.map fun e => if e.sub == some sub then { e with tent := false } else e }) t)) s

/-- Stores join the posted-store queue as far as it has room (R99, R124); the rest wait. -/
def drainInto (es : List Store) (c : Ctx) : Ctx :=
  let q := c.drain ++ es
  let m := 4 - c.posted.length
  { c with posted := c.posted ++ q.take m, drain := q.drop m }

/-- The path's stores drain in order (R99); a load of the path that is still awaited stands after those before it. -/
def drainPath (sub : Nat) (p : Spec) (s : State) : State :=
  let k := stkOf sub
  let es := p.sbuf.mapIdx fun i e => { e with seq := (stk k s).issued + i }
  let s1 := modCtx sub (drainInto es) (modStk k (fun x => { x with spec := none, issued := x.issued + es.length }) s)
  { s1 with loads := s1.loads.map fun kv =>
      if kv.1 = sub then (kv.1, { kv.2 with before := drainInto (es.take kv.2.sbuf) kv.2.before }) else kv }

/-- TICs before X in the lookahead buffer, and those with it. -/
def ticsBefore (x : Sch) : Nat := (x.look.takeWhile fun c => wCode c.words == 1).length

/-- Confirmation of a speculative path (R104) by a delivered DSTAT: X becomes current with what the path has read of it, the
TICs before it counted; its FEV status is composed; its stores drain; the path goes on as committed execution. -/
def confirm (sub : Nat) (p : Spec) (d : Byte) (s : State) : State :=
  let k := stkOf sub
  let n := ticsBefore (sch sub s)
  let s1 := modSch sub (fun x => { x with
    lastDstat := d, attn := x.attn || bit d 5, tmoTicks := 0, runaway := x.runaway + 1 + n, lateEnd := false
    retries := 0, d5 := 0, tickRef := s.ft.tickDtb, tc := if wFlag p.x.words 7 then s.ft.tickDtb + wToff p.x.words else x.tc
    ccw := p.x.addr, first := p.x.addr, words := p.x.words, entry := p.x.entry, cfg := p.cfg
    lastResid := idleResid p.x.words, curAddr := p.curAddr, curOdd := false, curCnt := p.curCnt, more := p.more
    idaPtr := p.idaPtr, look := x.look.drop (n + 1), phase := .proc, pfReq := false }) (predUpdate sub (bit d 6) s)
  let s2 := drainPath sub p (confirmTents sub (doFev sub s1).2)
  let s3 := match p.hold with
    | some v => { s2 with dtbHold := mset 0 (7 + k) v s2.dtbHold }
    | none => s2
  let s4 := countBy (bStk k) 8 p.instrs (blwCount sub 0x6 1 s3)
  let s5 := trace sub 9 (pcOf sub s4) p.instrs (doIf p.badw (setRgBit (bStk k) 1 7 true) s4)
  let s6 := doIf (p.curCnt == 0 && wFlag p.x.words 1) (addDue (.advance sub)) s5
  if p.pause = 0 then s6 else setRun sub .ready s6

/-- One channel step in the context's turn. A PATH status that waits for a held one holds the step back (R82). -/
def doStep (sub : Nat) (c : ChStep) (s : State) : State :=
  if (sch sub s).pathLater then setRun sub .inactive s
  else match c with
    | .goto f => doGoto sub f s
    | .arrived f ws bad => doArrived sub f ws bad s
    | .perform => doPerform sub s
    | .expired => doExec sub s
    | .ret d pf _ => doRet sub d pf s
    | .invalid d => doInvalid sub d s
    | .enter d5 => enterProc sub d5 s
    | .held .fev =>
      let v := doFev sub s
      if v.1 then idleAs sub (.heldWait .fev) v.2 else doPerform sub v.2
    | .held .post => doExec sub s
    | .held (.conf d) =>
      (match specOf sub s with
       | some p =>
         if (sch sub s).held.any fun h => h.endc == 3 || h.endc == 5 then modSch sub (fun x => { x with phase := .heldWait (.conf d) }) s
         else confirm sub p d s
       | none => doRet sub d false s)

/-- What a context that has the stoker does next: a WAIT completes (R129), a start-pending program begins (R51), a context
that yielded re-enters (R70), a waiting channel step is taken. -/
def turn (sub : Nat) (s : State) : State :=
  if (ctx sub s).run ≠ .running then s
  else if (ctx sub s).waitNext.isSome then stepDone sub (waitEnd sub s)
  else
  let x := sch sub s
  if x.st = .startPending then
    setStep sub (.goto { addr := x.ccw }) (modSch sub (fun y => { y with st := .active }) s)
  else match x.phase with
    | .yielded => enterProc sub 1 s
    | .step c => doStep sub c s
    | _ => s

/-! ### Data chains (R62 to R65) -/

/-- A CCW of a data chain becomes current (R56, R64): its segment joins the running transfer. Where its FEV status must wait
for a held one (R82), its fetch stays outstanding. DESIGN CHOICE (log 87): a CCW with an internal code 0x02 to 0x05 that
continues a data chain is a data segment by its w1 to w4. -/
def dcArrive (sub : Nat) (f : FetchInfo) (ws : List Word) (bad : Bool) (s : State) : State :=
  let s1 := modSch sub (fun x => { x with
    ccw := if wCode ws = 1 && f.tic.isSome then f.tic.getD f.addr else f.addr
    tmoTicks := 0, runaway := x.runaway + 1, dcFetch := none, curCnt := 0, more := 0, cfg := cfgNow sub s
    tickRef := s.ft.tickDtb }) s
  if bad then failStep sub true (0x80, 0) 0 s1
  else if (rg (bStk (stkOf sub)) 0x408 s1).toNat < (sch sub s1).runaway then failStep sub true (0x400, 0x12) 0 s1
  else
    let r := readEntry sub ws s1
    let listOk := !wFlag ws 4 || ctlOk sub (wDaddr ws) r.2.2.2
    if r.2.2.1 then failStep sub true (0x80, 0) 0 r.2.2.2
    else match progCheck ws true f.tic.isSome listOk r.2.1 r.1 with
      | some why => failStep sub true why 0 r.2.2.2
      | none =>
        if wCode ws = 1 then
          let a := BitVec.ofNat 32 (wDaddr ws)
          if ctlOk sub a.toNat r.2.2.2 then
            addDue (.advance sub) (modSch sub (fun x => { x with
              dcFetch := some { addr := a, dataChain := true, tic := some x.ccw } }) r.2.2.2)
          else failStep sub true (0x200, 0) 0 (modSch sub (fun x => { x with ccw := a }) r.2.2.2)
        else
          let s2 := modSch sub (fun x => { x with words := ws }) r.2.2.2
          let v := doFev sub s2
          if v.1 then s
          else
            let o := openSeg sub v.2
            match o.1 with
            | some why => failStep sub true why 0 o.2
            | none => addDue (.advance sub) o.2

/-- The data cursor carries on (R62, R64, R65): a waiting CCW of the data chain comes from the lookahead buffer, bytes move
within the segment, and a segment's end leads to the next IDA entry or the next CCW. -/
def advance (sub : Nat) (s : State) : State :=
  let x := sch sub s
  match x.dcFetch with
  | some f =>
    (match lookHead sub f s with
     | some c => dcArrive sub f c.words false (modSch sub (fun y => { y with look := y.look.drop 1 }) s)
     | none => s)
  | none =>
    if 0 < x.curCnt then
      (if x.advLeft = 0 then s
       else
         let m := min x.advLeft x.curCnt
         addDue (.advance sub) (modSch sub (fun y => { y with advLeft := y.advLeft - m }) (curMove sub m s)))
    else if 0 < x.more then
      let r := nextIda sub s
      match r.1 with
      | some why => failStep sub true why 0 r.2
      | none => addDue (.advance sub) r.2
    else if wFlag x.words 1 && wProc x.words then
      let a := x.ccw + 8
      if ctlOk sub a.toNat s then
        addDue (.advance sub) (modSch sub (fun y => { y with dcFetch := some { addr := a, dataChain := true } }) s)
      else failStep sub true (0x200, 0) 0 (modSch sub (fun y => { y with ccw := a }) s)
    else modSch sub (fun y => { y with advLeft := 0 }) s

end Sys2Proof.Machine
end

