-- ==== Sys2Proof/Machine/Operate.lean ====
section
/-! DEFINITION. The operations on a subchannel (R47 to R52), paths and alternates (R74 to R76), and path faults (R81). -/
namespace Sys2Proof.Machine
open Sys2Proof

/-- Result codes of R48. -/
def resAccepted : Nat := 0
/-- BUSY. -/
def resBusy : Nat := 1
/-- STATUS-PENDING. -/
def resStatusPending : Nat := 2
/-- NOT-ACTIVE. -/
def resNotActive : Nat := 3
/-- NOT-SUSPENDED. -/
def resNotSuspended : Nat := 4
/-- RETIRED. -/
def resRetired : Nat := 5
/-- NO-PATH. -/
def resNoPath : Nat := 6
/-- BAD-ADDRESS. -/
def resBadAddress : Nat := 7
/-- MALFORMED. -/
def resMalformed : Nat := 8

/-- The register SCH_STATE (R45). -/
def schState (sub : Nat) (s : State) : Word :=
  let x := sch sub s
  let st := match x.st with
    | .idle => 0 | .startPending => 1 | .active => 2 | .suspended => 3 | .statusPending => 4 | .halted => 5 | .retired => 6
  wd (b2n x.curOdd * 1024 + b2n (iheld sub s) * 512 + b2n x.resumePend * 256 + b2n x.fwd * 128 + x.curPath.toNat * 16 + st)

/-- START (R50, R52). `hseq` is the HSEQ its statuses carry (R49). -/
def opStart (sub addr : Nat) (parm hseq : Word) (s : State) : Nat × State :=
  match (sch sub s).st with
  | .idle =>
    if addr % 8 ≠ 0 || !ctlOk sub addr s then (resBadAddress, s)
    else if anyPath sub s && (lowPath sub s).isNone then (resNoPath, s)
    else
      let s1 := modSch sub (fun x => { x with
        st := .startPending, phase := .none, sparm := parm, ccw := BitVec.ofNat 32 addr, hseq := hseq
        resumePend := false, retries := 0, curPath := BitVec.ofNat 2 ((lowPath sub s).getD 0)
        late := false, attn := false, lateEnd := false, lastDstat := 0, lastAux := 0, lastResid := 0, d5 := 0
        words := [], entry := none, curCnt := 0, more := 0, tmoTicks := 0, delivered := none, look := [], prefetch := []
        haltReq := false, pathReq := false, pfReq := false, noSpec := false, dcFetch := none, advLeft := 0, cfg := [] }) s
      (resAccepted, setRun sub .ready s1)
  | .startPending | .active | .suspended | .halted => (resBusy, s)
  | .statusPending => (resStatusPending, s)
  | .retired => (resRetired, s)

/-- HALT of an active program (R77): waits end at once, a pending return loses its path, otherwise the next boundary
counts. -/
def haltActive (sub : Nat) (s : State) : State :=
  let s1 := stopBound sub (fqDiscardSub sub true (squash sub (modSch sub (fun x => { x with st := .halted }) s)))
  let x := sch sub s1
  let now (r : Word) : State := endHalted sub 0 0 r s1
  match x.phase with
  | .fetch _ => now x.lastResid
  | .step (.goto _) => now x.lastResid
  | .step (.arrived _ _ _) => now x.lastResid
  | .timed => now x.lastResid
  | .step .expired => now x.lastResid
  | .tickWait => now 0
  | _ => modSch sub (fun y => { y with haltReq := true }) s1

/-- HALT (R50, R51). -/
def opHalt (sub : Nat) (s : State) : Nat × State :=
  match (sch sub s).st with
  | .idle => (resNotActive, s)
  | .startPending => (resAccepted, endProgram sub 1 0 0 0 0 0 s)
  | .active => (resAccepted, haltActive sub s)
  | .suspended =>
    let x := sch sub s
    let r := if x.words.isEmpty then subReads sub x.ccw.toNat 8 s else (x.words, false, s)
    (resAccepted, endProgram sub 1 0 0 (idleResid r.1) 0 x.lastAux r.2.2)
  | .statusPending => (resStatusPending, s)
  | .halted => (resAccepted, s)
  | .retired => (resRetired, s)

/-- Discard every held status of a subchannel (R79). -/
def dropHeld (sub : Nat) (s : State) : State :=
  forAll ((s.cqs.filter fun kq => kq.2.waiting.contains (.sub sub)).map fun kq => kq.1)
    (fun n => modCq n fun q => { q with waiting := q.waiting.filter fun w => w != .sub sub })
    (modSch sub (fun x => { x with held := [] }) s)

/-- CLEAR (R79): an abort with no ending status, every held status gone, one CLEARED status. DESIGN CHOICE (log 91): CLEAR and
START empty BLW_HELD and leave its sticky OVW bit as it is. -/
def opClear (sub : Nat) (s : State) : Nat × State :=
  if (sch sub s).st == .retired then (resRetired, s)
  else
    let resid := if hasProgram (sch sub s).st then wd (sch sub s).curCnt else 0
    let s1 := if hasProgram (sch sub s).st then abortWork sub s else s
    let s2 := dropHeld sub (modSch sub (fun x => { x with
      resumePend := false, retries := 0, delivered := none, attn := false, late := false, curCnt := 0, more := 0 }) s1)
    let s3 := setRg (bStk (stkOf sub)) (blwOfs sub 0) 1 s2
    (resAccepted, finish sub (mkStatus sub 4 0 0 resid 0 0 0 s3) s3)

/-- RESUME (R50, R73). -/
def opResume (sub : Nat) (s : State) : Nat × State :=
  match (sch sub s).st with
  | .idle | .halted => (resNotSuspended, s)
  | .startPending | .active => (resAccepted, modSch sub (fun x => { x with resumePend := true }) s)
  | .suspended =>
    (resAccepted, setStep sub (.goto { addr := (sch sub s).ccw, refetch := true })
      (modSch sub (fun x => { x with st := .active }) s))
  | .statusPending => (resStatusPending, s)
  | .retired => (resRetired, s)

/-- MODIFY (R50, R73). -/
def opModify (sub addr : Nat) (s : State) : Nat × State :=
  match (sch sub s).st with
  | .suspended =>
    if addr % 8 ≠ 0 || !ctlOk sub addr s then (resBadAddress, s)
    else (resAccepted, modSch sub (fun x => { x with
      ccw := BitVec.ofNat 32 addr, words := [], lastResid := 0, look := [], prefetch := [] }) s)
  | .retired => (resRetired, s)
  | _ => (resNotSuspended, s)

/-- TEST (R50). -/
def opTest (_sub : Nat) (s : State) : Nat × State := (resAccepted, s)

/-- The path in use has gone out of service and another remains (R75). -/
def pathLost (sub : Nat) (s : State) : State :=
  let x := sch sub s
  match x.st with
  | .startPending => movePath sub s
  | .suspended => movePath sub s
  | .active | .halted =>
    (match x.phase with
     | .proc => modSch sub (fun y => { y with pathReq := true }) s
     | .deferred =>
       setStep sub (.ret 0 false true) (modSch sub (fun y => { y with pathReq := true }) (squash sub s))
     | .heldWait (.conf _) => modSch sub (fun y => { y with pathReq := true }) (squash sub s)
     | .step (.held (.conf _)) => modSch sub (fun y => { y with pathReq := true }) (setRun sub .ready (squash sub s))
     | .step (.ret _ _ true) | .step (.invalid _) => modSch sub (fun y => { y with pathReq := true }) s
     | .yielded =>
       if x.haltReq then movePath sub s
       else
         let s1 := pathChange sub (rewind sub s)
         setStep sub (.goto { addr := (sch sub s1).first }) (modSch sub (fun y => { y with d5 := 3 }) s1)
     | _ =>
       if x.haltReq then movePath sub s
       else
         let s1 := pathChange sub s
         if x.words.isEmpty && x.phase == .none then s1
         else modSch sub (fun y => { y with d5 := 3 }) s1)
  | _ => s

/-- Path n of a subchannel goes out of service (R74, R75). -/
def retirePathNow (sub n : Nat) (s : State) : State :=
  if !pathUp sub n s then s
  else
    let s1 := setRgBit (bStk (stkOf sub)) (schOfs sub (8 + 2 * n)) 14 false s
    if (lowPath sub s1).isNone then addDue (.retireSub sub) s1
    else if n = (sch sub s1).curPath.toNat then pathLost sub s1
    else s1

/-- RETIRE-PATH (R74). DESIGN CHOICE (log 88): a valid path that is out of service already gives ACCEPTED. -/
def opRetirePath (sub n : Nat) (s : State) : Nat × State :=
  if (sch sub s).st == .retired then (resRetired, s)
  else if !pathValid sub n s then (resNoPath, s)
  else if pathUp sub n s && (span 0 4).all (fun m => m == n || !pathUp sub m s) then (resNoPath, s)
  else (resAccepted, retirePathNow sub n s)

/-- The subchannel's stoker is in service: not retired (R75, R340). -/
def stkInService (k : Nat) (s : State) : Bool := !stkRetired k s

/-- RESTORE-PATH (R74, R75). DESIGN CHOICE (log 88, 89): an invalid path gives NO-PATH, and a retired subchannel that still
holds statuses becomes status-pending. -/
def opRestorePath (sub n : Nat) (s : State) : Nat × State :=
  if !pathValid sub n s then (if (sch sub s).st == .retired && !stkInService (stkOf sub) s then (resRetired, s) else (resNoPath, s))
  else if (sch sub s).st == .retired then
    (if stkInService (stkOf sub) s then
      (resAccepted, modSch sub (fun x => { x with st := if x.held.isEmpty then .idle else .statusPending })
        (setRgBit (bStk (stkOf sub)) (schOfs sub (8 + 2 * n)) 14 true s))
     else (resRetired, s))
  else (resAccepted, setRgBit (bStk (stkOf sub)) (schOfs sub (8 + 2 * n)) 14 true s)

/-- The subchannel an operation other than TEST reaches: forwarded while FWD is 1 (R50). -/
def fwdTo : Nat → Nat → State → Nat
  | 0, sub, _ => sub
  | fuel + 1, sub, s =>
    if (sch sub s).fwd then fwdTo fuel (fld (schReg sub 0x10 s) 12 0) s else sub

/-- An operation by its code (R48, R50). -/
def operate (op sub addr : Nat) (parm hseq : Word) (s : State) : Nat × State :=
  let t := fwdTo 8192 sub s
  if op = 1 then opStart t addr parm hseq s
  else if op = 2 then opHalt t s
  else if op = 3 then opClear t s
  else if op = 4 then opResume t s
  else if op = 5 then opModify t addr s
  else if op = 6 then opTest sub s
  else if op = 7 then opRetirePath t (fld parm 1 0) s
  else if op = 8 then opRestorePath t (fld parm 1 0) s
  else (resMalformed, s)

/-- A program that executed RESUME-OTHER learns the result (R54): AUX, and EXCEPT unless ACCEPTED. -/
def resumeDone (sub : Nat) (aux : Word) (ok : Bool) (s : State) : State :=
  if (sch sub s).phase == .remote then
    endInternal sub (if ok then 0 else 0x08) (modSch sub (fun x => { x with lastAux := aux }) s)
  else s

/-- The registers R76 copies to an alternate: SCH_CTL without STANDBY, CMDTAB, CQ, RETRY, TMO, LEAD and the paths. -/
def copyToAlt (sub alt : Nat) (s : State) : State :=
  let ctl := schReg sub 1 s &&& 0x3
  let s1 := setRg (bStk (stkOf alt)) (schOfs alt 1) ctl s
  forAll (span 2 14) (fun i t => setRg (bStk (stkOf alt)) (schOfs alt i) (schReg sub i s) t) s1

/-- The subchannel enters retired (R75, R76): its program ends with IFCHK, and its work moves to an idle standby
alternate. -/
def retireSubNow (sub : Nat) (s : State) : State :=
  if (sch sub s).st == .retired then s else
  let a := schReg sub 0x10 s
  let alt := fld a 12 0
  let moves := bit a 15 && (sch alt s).st == .idle && bit (schReg alt 1 s) 2 && alt != sub
  let aux := if moves then wd alt else (sch sub s).lastAux
  let had := hasProgram (sch sub s).st
  let mark (t : State) : State := modSch sub (fun x => { x with st := .retired, fwd := moves }) t
  let s1 := if had then
      let resid := wd (sch sub s).curCnt
      let w := mark (abortWork sub s)
      finish sub (mkStatus sub 0 (sch sub w).lastDstat 0x40 resid 0 0 aux w) w
    else if moves then
      let w := mark s
      offer sub { mkStatus sub 0 0 0x40 0 0 0 aux w with dstat := 0 } w
    else mark s
  if moves then copyToAlt sub alt s1 else s1

/-- Subchannels that may use a path through a grate or lane: those of the given list whose path words name it. -/
def pathsThrough (isLane : Bool) (num sub : Nat) (s : State) : List Nat :=
  (span 0 4).filter fun n => pathValid sub n s && bit (pathW sub n s) 13 == isLane && fld (pathW sub n s) 5 0 == num

/-- Subchannels with a path register that is written: the stoker blocks' entries in the register map. -/
def pathSubs (s : State) : List Nat :=
  ((s.regs.filter fun kv =>
      let a := kv.1
      decide (0x21000000 ≤ a) && decide (a < 0x23000000) &&
      decide (0x600 ≤ a % 0x10000) && decide (a % 0x10000 < 0x800) && decide (8 ≤ a % 32) && decide (a % 32 < 16) && a % 2 == 0
    ).map fun kv => (kv.1 - 0x21000000) / 0x10000 * 16 + (kv.1 % 0x10000 - 0x600) / 32).eraseDups

/-- Every path through a grate or lane goes out of service (R340). -/
def retirePathsNow (isLane : Bool) (num : Nat) (s : State) : State :=
  forAll (pathSubs s) (fun sub t => forAll (pathsThrough isLane num sub t) (fun n => retirePathNow sub n) t) s

/-- A path fault of the path in use reaches a subchannel (R81): a pending return completes with CHECK and IFCHK; in every
other phase of the program the next return or end has IFCHK. -/
def pathFaultNow (sub : Nat) (s : State) : State :=
  let x := sch sub s
  match x.phase with
  | .deferred => setStep sub (.ret 0x04 true true) (squash sub s)
  | _ => modSch sub (fun y => { y with pfReq := true }) s

/-- The grate or lane reports a path fault to every subchannel whose path in use goes through it (R196, R205, R211). -/
def reportPathFault (isLane : Bool) (num : Nat) (s : State) : State :=
  forAll ((pathSubs s).filter fun sub => hasProgram (sch sub s).st && usesRes sub isLane num s)
    (fun sub => addDue (.pathFault sub)) s

end Sys2Proof.Machine
end

