-- ==== Sys2Proof/Machine/Fault.lean ====
section
/-! DEFINITION. Faults: occurrences, reactions and their levels (R329 to R337), the actions of *Table — fault sources*
(R338), retirement (R340), resets of units and their shadows (R341, R342), the FAULT pulse (R345). -/
namespace Sys2Proof.Machine
open Sys2Proof

/-! ### Resets of units -/

/-- A program that is start-pending, active, suspended or halted ends with IFCHK and ENDC FINAL (R341). -/
def endByReset (sub : Nat) (s : State) : State :=
  if hasProgram (sch sub s).st then abort sub 0x40 0 0 (sch sub s).lastAux s else s

/-- A stoker enters reset (R341): its programs end, entries of its subchannels go, events are completed, the cache lines
and the posted stores are lost, the bellows registers that are no counters or configuration take their reset values, forwarding
ends. -/
def stokerIn (k : Nat) (s : State) : State :=
  let s1 := forAll (span (16 * k) 16) endByReset s
  let s2 := fqDiscard (fun e => match e.sub with | some x => stkOf x == k | none => false) s1
  let s3 := doneEvents k none s2
  let s4 := modStk k (fun x => { x with cur := none, ic := [], spec := none }) s3
  forAll (span (16 * k) 16) (fun sub t =>
    setRg (bStk k) (blwOfs sub 0) 1 (setRgBit (bStk k) (blwOfs sub 3) 14 false
      (modSch sub (fun x => { x with fwd := false, look := [], prefetch := [], delivered := none, arriving := [] })
        (modCtx sub (fun x => { x with
          posted := [], drain := [], pushes := [], run := if x.stopped then .stopped else .inactive }) t))))
    (setRgBit (bStk k) 0x901 7 false s4)

/-- A stoker leaves reset: every context register is 0 (R136), and it may choose. -/
def stokerOut (k : Nat) (s : State) : State :=
  addDue (.resched k)
    (forAll (span (16 * k) 16) (fun sub t => modCtx sub (fun x => { stopped := x.stopped, run := if x.stopped then .stopped else .inactive }) t) s)

/-- A stoker reset, unless the stoker is held, retired or already in reset (R341). -/
def stokerResetIn (k : Nat) (s : State) : State :=
  if stkHeld k s || stkRetired k s || stkInReset k s then s else stokerIn k s

/-- The draught channels of a firebox go to IDLE and their bindings drop (R341). -/
def drReset (f : Nat) (s : State) : State :=
  forAll (span (16 * f) 16) (fun k t =>
    let t1 := modChan k (fun _ => {}) (chRelease k t)
    { t1 with outst := t1.outst.filter fun kv => match kv.2 with | .draught c _ _ => c != k | _ => true }) s

/-- Stokers of a firebox, sequencers of the grates it owns and its channels enter reset. -/
def fireboxIn (f : Nat) (s : State) : State :=
  let s1 := forAll (span (8 * f) 8) stokerResetIn s
  forAll (span 0 64) (fun g t => if grateOwner g t = f then seqStop g t else t) (drReset f s1)

/-- A hearth enters reset: its fireboxes, and the pending, in-service and presented state of its event controller. -/
def hearthIn (h : Nat) (s : State) : State :=
  let s1 := forAll (span (8 * h) 8) fireboxIn s
  let s2 := forAll (span 0 64) (fun w t => setRg (bHrt h) (0x180 + w) 0 (setRg (bHrt h) (0x140 + w) 0 t)) s1
  let s3 := forAll (span (64 * h) 64) (fun k t => modStk k (fun x => { x with claims := [], dones := [] }) t) s2
  { s3 with
    evHost := s3.evHost.filter fun kv => kv.1 / 1024 != h
    presented := s2.presented.filter fun kv => hrtOf kv.1 != h
    evOrphan := s2.evOrphan.filter fun kv => kv.1 / 1024 != h }

/-- A unit (1 stoker, 2 firebox, 3 hearth, 4 stove die) enters reset and casts a shadow (R341, R342). -/
def unitReset (scope n : Nat) (s : State) : State :=
  if s.fc.inReset.contains (scope, n) || (scope = 1 && (stkHeld n s || stkRetired n s || stkInReset n s)) ||
     (scope = 4 && dieRet n s) || (scope = 3 && dieRet (n / 2) s) || (scope = 2 && dieRet (n / 16) s) then s
  else
    let s1 :=
      if scope = 1 then stokerIn n s
      else if scope = 2 then fireboxIn n s
      else if scope = 3 then hearthIn n s
      else hearthIn (2 * n + 1) (hearthIn (2 * n) s)
    { s1 with fc := { s1.fc with
      inReset := s1.fc.inReset ++ [(scope, n)]
      shadows := s1.fc.shadows.filter (fun u => u != (scope, n)) ++ [(scope, n)] } }

/-- A shadow covers firebox f: of the firebox, its hearth or its die. -/
def shadowFbx (f : Nat) (s : State) : Bool :=
  s.fc.shadows.any fun u => u == (2, f) || u == (3, f / 8) || u == (4, f / 16)

/-- A shadow covers the target of a fabric transaction, a word address (R342). -/
def shadowAddr (a : Nat) (s : State) : Bool :=
  if 0x11000000 ≤ a && a < 0x12000000 then shadowFbx ((a - 0x11000000) / 0x40000) s
  else if 0x10000000 ≤ a && a < 0x11000000 then
    s.fc.shadows.any fun u => u == (3, sramHearth a) || u == (4, sramHearth a / 2)
  else if 0x20000000 ≤ a && a < 0x30000000 then
    (match blkOf ((a - 0x20000000) / 0x10000) with
     | .stoker k => s.fc.shadows.any (fun u => u == (1, k)) || shadowFbx (k / 8) s
     | .firebox f => shadowFbx f s
     | .draught f => shadowFbx f s
     | .hearth h => s.fc.shadows.any fun u => u == (3, h) || u == (4, h / 2)
     | .die d => s.fc.shadows.any fun u => u == (4, d)
     | _ => false)
  else false

/-! ### Retirement -/

/-- A subchannel's stoker is lost: the subchannel enters retired. -/
def retireStokerSubs (k : Nat) (s : State) : State :=
  forAll (span (16 * k) 16) (fun sub => retireSubNow sub) s

/-- A stoker is retired (R340): subchannels retired, events completed, held in reset, RET_STK set. -/
def retireStoker (k : Nat) (s : State) : State :=
  if stkRetired k s then s else
  let s1 := retireStokerSubs k s
  let fw := (span (16 * k) 16).filter fun sub => (sch sub s1).fwd
  let s2 := forAll fw (fun sub => modSch sub fun x => { x with fwd := true }) (stokerIn k s1)
  setRgBit 6 (0x110 + k / 16) (15 - k % 16) true s2

/-- A stove die is retired (R340): its stokers, its hearths in reset, its SRAM ranges unmapped, RET_DIE set. -/
def retireDie (d : Nat) (s : State) : State :=
  if dieRet d s then s else
  let s1 := forAll (span (128 * d) 128) (fun k => retireStoker k) s
  let s2 := hearthIn (2 * d + 1) (hearthIn (2 * d) s1)
  setRgBit 6 0x100 d true { s2 with fc := { s2.fc with inReset := s2.fc.inReset ++ [(4, d)] } }

/-- A pin is retired (R340). -/
def retirePin (p : Nat) (s : State) : State := setRgBit 6 (0x140 + p / 16) (p % 16) true s

/-- A GDDR6 device is retired (R242). -/
def retireGd (d : Nat) (s : State) : State := setRgBit 9 1 (12 + d) true s

/-! ### Sources -/

/-- The source has an L3 action (R331, R338); for the others L3 and L4 are skipped. -/
def hasL3 (b : Blk) (i : Nat) : Bool :=
  match b with
  | .gddr => decide (i < 3)
  | .flue _ => i == 3 || i == 4
  | .quad _ => i == 12 || i == 13 || i % 4 == 1 || i % 4 == 2
  | .hearth _ => i == 1 || i == 2
  | .die _ => true
  | .firebox _ => i == 1
  | .draught _ => true
  | .grate _ => i == 0 || i == 3 || i == 5 || i == 6
  | .stoker _ => i == 3
  | _ => false

/-- The hearth that owns a source, if one does (R331 L4). -/
def ownHearth (b : Blk) (i : Nat) (s : State) : Option Nat :=
  match b with
  | .stoker k => some (k / 64)
  | .firebox f => some (f / 8)
  | .draught f => some (f / 8)
  | .hearth h => some h
  | .grate g => some (grateOwner g s / 8)
  | .quad q => (lane (4 * q + i / 4) s).own.map fun f => f.toNat / 8
  | _ => none

/-- The host event of a block's faults (R300). -/
def hostEventOf (b : Blk) : Nat :=
  match b with
  | .frm => 0xC0 | .hif => 0xC1 | .boot => 0xC2 | .sec => 0xC3 | .ember => 0xC4 | .fc => 0xC5 | .mon => 0xC6
  | .dbg => 0xC7 | .gddr => 0xC8 | .damper => 0xC9 | .bulk => 0xCA | .hev => 0xCB
  | .flue p => 0xCC + p | .quad q => 0xD0 + q | .hearth h => 0xD8 + h | .firebox f => 0xD8 + f / 8
  | .draught f => 0xD8 + f / 8 | .stoker k => 0xD8 + k / 64 | .die d => 0xE0 + d | .grate g => 0xE4 + g / 16
  | .ident | .reserved => 0

/-- Level 1: the owner event, or the host event of a block with no hearth source (R331). -/
def ownerEvent (b : Blk) (i : Nat) (s : State) : State :=
  match b with
  | .stoker k => evEdge (k / 64) (0x380 + k % 64) s
  | .firebox f => evEdge (f / 8) (0x3C0 + f % 8) s
  | .draught f => evEdge (f / 8) (0x3C0 + f % 8) s
  | .hearth h => evEdge h 0x3C8 s
  | .grate g => grateEdge g 14 s
  | .quad q => laneEdge (4 * q + i / 4) 6 s
  | _ => hevEdge (hostEventOf b) s

/-- Level 2: the host event and a FAULT pulse (R331, R345). -/
def level2 (b : Blk) (s : State) : State :=
  let s1 := hevEdge (hostEventOf b) s
  if s1.fc.pulse then s1 else count 6 0x50 { s1 with fc := { s1.fc with pulse := true } }

/-- The transient L3 action (R338). -/
def l3Transient (b : Blk) (i : Nat) (unit : Word) (s : State) : State :=
  match b with
  | .flue p => addDue (.flueRetrain p) s
  | .quad q =>
    if i = 12 || i = 13 then setRgBit (bQd q) 0 (if i = 12 then 15 else 14) false s
    else addDue (.laneBringup (4 * q + i / 4)) s
  | .hearth h => unitReset 3 h s
  | .die d => unitReset 4 d s
  | .firebox f => unitReset 2 f s
  | .draught f => drReset f s
  | .grate g =>
    if i = 6 then
      let p := 16 * g + fld unit 3 0
      modPin p (fun q => { q with oe := false, fq := [], check := none }) s
    else s
  | .stoker k => unitReset 1 k s
  | _ => s

/-- The unit a permanent occurrence retires at L3 (R338, R340). -/
def l3Permanent (b : Blk) (i : Nat) (unit : Word) (s : State) : State :=
  match b with
  | .gddr => retireGd (fld unit 1 0) s
  | .flue p => if i = 3 then addDue (.flueLaneRetire p (fld unit 1 0)) s else addDue (.flueRetrain p) s
  | .quad q =>
    if i = 12 || i = 13 then
      forAll (span (4 * q) 4) (fun l t =>
        let pll1 := decide (3 < fld (rg (bQd q) (0x100 + 0x100 * (l % 4)) t) 15 12)
        if pll1 == (i == 13) then addDue (.laneRetire l) t else t) s
    else addDue (.laneRetire (4 * q + i / 4)) s
  | .die d => retireDie d s
  | .grate g =>
    if i = 6 then retirePin (16 * g + fld unit 3 0) s
    else if i = 3 then addDue (.retirePaths false g) s
    else forAll (span (g / 4 * 4) 4) (fun x => addDue (.retirePaths false x)) s
  | .stoker k => retireStoker k s
  | _ => s

/-- The permanent L3 action names a unit. -/
def namesUnit (b : Blk) : Bool :=
  match b with
  | .hearth _ | .firebox _ | .draught _ => false
  | _ => true

/-- Level 4: every subchannel of the hearth with an alternate outside it enters retired, then the hearth resets (R341). -/
def level4 (h : Nat) (s : State) : State :=
  let subs := (pathSubs s ++ s.sch.map fun kv => kv.1).eraseDups.filter fun sub =>
    sub / 1024 == h && bit (schReg sub 0x10 s) 15 && fld (schReg sub 0x10 s) 12 0 / 1024 != h
  unitReset 3 h (forAll subs (fun sub => retireSubNow sub) s)

/-! ### Reactions -/

/-- Offset of register j of source i. -/
def fltOfs (i j : Nat) : Nat := 0x7010 + 4 * i + j

/-- The soot word w0 of an entry (R346). -/
def sootW0 (cls level : Nat) (raw forced perm : Bool) (i : Nat) : Word :=
  wd (cls * 4096 + level * 512 + b2n raw * 256 + b2n forced * 128 + b2n perm * 64 + i)

/-- A KIND 0 or KIND 1 record of a source: at most one a frame, unless NOLOG (R331, R347). -/
def fltSoot (b i kind level : Nat) (s : State) : State :=
  let f := flt (16 * b + i) s
  let cfg := rg b (fltOfs i 0) s
  let own := b == 6 && i == 0
  if bit cfg 9 then s
  else if f.logged then (if own then s else raise 6 0 0 (count 6 0x52 s))
  else
    let w0 := sootW0 (fld cfg 7 4) level f.raw f.forced (bit (rg b (fltOfs i 2) s) 15) i
    sootAdd w0 (wd (kind * 4096 + b)) own (modFlt (16 * b + i) (fun x => { x with logged := true }) s)

/-- The action of one level for a source; L3 and L4 are not performed in safe state (R331, R343). A retirement leaves a
KIND 2 record. -/
def levelAction (b i level : Nat) (perm : Bool) (s : State) : State :=
  let k := blkOf b
  let f := flt (16 * b + i) s
  if level = 1 then ownerEvent k i s
  else if level = 2 then level2 k s
  else if level = 3 then
    (if s.safe.on then s
     else if perm then
       (if namesUnit k then
         let cfg := rg b (fltOfs i 0) s
         l3Permanent k i f.unit (sootAdd (sootW0 (fld cfg 7 4) 3 f.raw f.forced true i) (wd (2 * 4096 + b)) false s)
        else s)
     else l3Transient k i f.unit s)
  else if level = 4 then
    (match ownHearth k i s with
     | some h => if s.safe.on then s else level4 h s
     | none => s)
  else if level = 5 then safeEnter 3 none s
  else s

/-- A level that exists for the source: L3 and L4 are skipped without an L3 action, L4 without an owning hearth; a level
above MAXLVL falls back to the highest level that exists at or below it. -/
def fitLevel (b i lvl mx : Nat) (s : State) : Nat :=
  let k := blkOf b
  let l1 := if !hasL3 k i && (lvl = 3 || lvl = 4) then 5 else if lvl = 4 && (ownHearth k i s).isNone then 5 else lvl
  if l1 ≤ mx then l1
  else if !hasL3 k i && 3 ≤ mx && mx < 5 then 2
  else if mx = 4 && (ownHearth k i s).isNone then 3
  else mx

/-- The actions of every level from lo + 1 to hi. -/
def climb (b i lo hi : Nat) (perm : Bool) (s : State) : State :=
  forAll ((span 1 5).filter fun l => decide (lo < l) && decide (l ≤ hi) && (hasL3 (blkOf b) i || (l != 3 && l != 4)))
    (fun l => levelAction b i l perm) s

/-- Source i of block b is masked by a reset shadow (R342); a bus error's target is judged where it is declared. -/
def masked (b i : Nat) (s : State) : Bool :=
  match blkOf b with
  | .grate g => (i == 1 || i == 2) && shadowFbx (grateOwner g s) s
  | .quad q => i % 4 == 0 && ((lane (4 * q + i / 4) s).own.map fun f => shadowFbx f.toNat s) == some true
  | .die d => i == 0 && s.fc.inReset.contains (4, d)
  | _ => false

/-- The highest level pending of other sources of the same block and class (R332). -/
def classPending (b i cls : Nat) (s : State) : Option Nat :=
  let others := (fltSources (blkOf b)).filter fun j =>
    j != i && bit (rg b 0x7004 s) j && fld (rg b (fltOfs j 0) s) 7 4 == cls
  if others.isEmpty then none else some ((others.map fun j => (flt (16 * b + j) s).level).foldl max 0)

/-- An occurrence of source i of block b (R330 to R337). -/
def occur (b i : Nat) (raw forced : Bool) (unit : Word) (retryFailed : Bool) (s : State) : State :=
  if !(fltSources (blkOf b)).contains i then s
  else if raw && !forced && masked b i s then count b 0x7008 s
  else
    let key := 16 * b + i
    let f := flt key s
    let cfg := rg b (fltOfs i 0) s
    let cls := fld cfg 7 4
    let mx := fld cfg 12 10
    let limit := fld (rg 6 (0x10 + 2 * cls) s) 7 0
    let occ := min 255 ((if f.winOpen then fld (rg b (fltOfs i 2) s) 7 0 else 0) + 1)
    let perm := retryFailed || (limit != 255 && decide (limit < occ))
    let s1 := setRgFld b (fltOfs i 2) 7 0 occ (count b 0x7006 s)
    let s2 := doIf raw (setRgBit b 0x7000 i true) (doIf forced (setRgBit b 0x7001 i true) s1)
    let s3 := doIf perm (setRgBit b (fltOfs i 2) 15 true) s2
    let pend := bit (rg b 0x7004 s) i
    let fOnly := if pend then f.forcedOnly && !raw else !raw
    let s4 := modFlt key (fun x => { x with winOpen := true, raw := raw, forced := forced, unit := unit, forcedOnly := fOnly }) s3
    if !bit (rg b 0x7002 s) i then modFlt key (fun x => { x with forcedOnly := f.forcedOnly }) s4
    else
      let base := if pend then max (fld cfg 15 13) (f.level + 1)
        else match classPending b i cls s with
          | some l => max (fld cfg 15 13) (l + 1)
          | none => fld cfg 15 13
      let want := if perm then max base (if hasL3 (blkOf b) i then 3 else 5) else base
      let lvl0 := fitLevel b i (min want 5) mx s
      let lvl := if bit (rg b 0x7005 s) 0 && fOnly then min lvl0 1 else lvl0
      let from_ := if pend then f.level else 0
      let again := perm && pend && !f.permanent && decide (3 ≤ f.level) && decide (3 ≤ lvl)
      let s5 := modFlt key (fun x => { x with
        level := max lvl from_, timerOn := rg b (fltOfs i 1) s != 0 && decide (max lvl from_ < mx)
        permanent := if pend then x.permanent || perm else perm }) s4
      let s6 := setRgFld b (fltOfs i 2) 14 12 (max lvl from_) (setRgBit b 0x7004 i true s5)
      let s7 := fltSoot b i 0 (max lvl from_) s6
      climb b i from_ lvl perm (doIf again (levelAction b i 3 true) s7)

/-- The reaction timer of a source runs out (R333, R335). -/
def timerRise (b i : Nat) (s : State) : State :=
  let key := 16 * b + i
  let f := flt key s
  let mx := fld (rg b (fltOfs i 0) s) 12 10
  if !f.timerOn || !bit (rg b 0x7004 s) i then s
  else if bit (rg b 0x7005 s) 0 && f.forcedOnly && 1 ≤ f.level then modFlt key (fun x => { x with timerOn := false }) s
  else
    let lvl := fitLevel b i (min 5 (f.level + 1)) mx s
    if lvl ≤ f.level then modFlt key (fun x => { x with timerOn := false }) s
    else
      let s1 := modFlt key (fun x => { x with level := lvl, timerOn := rg b (fltOfs i 1) s != 0 && decide (lvl < mx) }) s
      let s2 := setRgFld b (fltOfs i 2) 14 12 lvl s1
      climb b i f.level lvl f.permanent (fltSoot b i 1 lvl s2)

end Sys2Proof.Machine
end

