-- ==== Sys2Proof/Machine/DrCore.lean ====
section
/-! DEFINITION. A draught channel that an error halts (R245, R252). -/
namespace Sys2Proof.Machine
open Sys2Proof

/-- Offset of word n of channel k's registers in its draught block. -/
def chOfs (k n : Nat) : Nat := 0x100 + 16 * (k % 16) + n
/-- Block index of channel k. -/
def chBlk (k : Nat) : Nat := bDr (k / 16)

/-- Channel k halts with an error code (R245, R252). For codes 5 to 7 the transaction is latched: its address or deep
offset, whether it was a write, to which side, and whether it fetched a descriptor. `bus`: it met a bus error; `loud`: which
no reset shadow masks (R342). A channel halted by a bus error that its RESUME met again has used up its retry (R337). A bound
subchannel ends with BUSERR, with DATACHK for code 6 and with PROTCHK for code 2 (R63, R230). -/
def drHalt (k code addr : Nat) (deep wr isDesc bus loud : Bool) (s : State) : State :=
  let c := chan k s
  let b := chBlk k
  let s0 := if 5 ≤ code then
      setRg b (chOfs k 0xA) (wd (b2n wr * 32768 + b2n deep * 16384 + b2n wr * 8192 + b2n isDesc * 4096))
        (setRgs b (chOfs k 8) (wordsOf 2 addr) s)
    else s
  let s1 := modChan k (fun x => { x with
    st := .halted, err := BitVec.ofNat 4 code, needDesc := decide (code < 5), latched := isDesc, fetching := false
    stopReq := false, resumed := false, got := [], seg := none })
    { s0 with outst := s0.outst.filter fun kv => match kv.2 with | .draught n _ _ => n != k | _ => true }
  let s2 := drEvent k s1
  let s3 := if bus && loud then addDue (.fault b 0 true false 0 c.resumed) s2
    else if bus then count b 0x7008 s2 else s2
  let s4 := if code = 6 || code = 7 then raise b 1 0 s3 else s3
  match c.bound with
  | some sub => addDue (.abort sub (if code = 6 then 0x100 else if code = 2 then 0x200 else 8) 0 0 (sch sub s).lastAux) (chRelease k s4)
  | none => s4

end Sys2Proof.Machine
end

