-- ==== Sys2Proof/Machine/FlueCore.lean ====
section
/-! DEFINITION. Stoker faults (R133), and the flue ports' own work: sending and routing packets, replay, retraining and
retirement (R272 to R281). -/
namespace Sys2Proof.Machine
open Sys2Proof

/-! ### Stoker faults -/

/-- The CSTAT bits of a stoker fault code (R133). -/
def faultCstat (code : Nat) : Word :=
  if code = 0x0C then 0x500 else if code = 0x0E || code = 0x0F then 0x408 else 0x400

/-- Record a stoker fault in CTX_FLT_CODE and CTX_FLT_ADDR; the address is 0 for codes other than 0x0A to 0x0F. -/
def faultRecord (sub code addr : Nat) (s : State) : State :=
  let o := 0x340 + 4 * ctxOf sub
  let a := if 0x0A ≤ code && code ≤ 0x0F then addr else 0
  setRgs (bStk (stkOf sub)) (o + 1) (wordsOf 2 a) (setRg (bStk (stkOf sub)) o (wd (0x8000 + code)) s)

/-- A stoker fault at a code address (R133): the program ends by abort; on a speculative path it is poison (R102). -/
def stokerFaultAt (sub code addr pc : Nat) (s : State) : State :=
  match specOf sub s with
  | some _ =>
    setRun sub .wait (modStk (stkOf sub) (fun x => { x with
      spec := x.spec.map fun p => { p with poison := true, pause := 7 } }) s)
  | none =>
    if hasProgram (sch sub s).st then
      let s1 := trace sub 5 pc (code * 256) (faultRecord sub code addr s)
      abort sub (faultCstat code) (BitVec.ofNat 8 (0x20 + code)) (BitVec.ofNat 8 (pc / 65536)) (wd pc)
        (raise (bStk (stkOf sub)) 1 0 s1)
    else s

/-- A stoker fault at the instruction in hand. -/
def stokerFault (sub code addr : Nat) (s : State) : State := stokerFaultAt sub code addr (pcOf sub s) s

/-! ### The flue ports -/

/-- DEVNUM of this device. -/
def devNum (s : State) : Nat := fld (rg 0xC 3 s) 11 0
/-- Flue port p is up. -/
def flUp (p : Nat) (s : State) : Bool := bit (rg (bFl p) 1 s) 15
/-- The device is isolated (FL_GCTL.ISOLATE, R290). -/
def isolated (s : State) : Bool := bit (rg 0x14 0x100 s) 15
/-- ROUTE of a device number. -/
def routeW (d : Nat) (s : State) : Word := rg 0x14 (0x1000 + d) s

/-- The port a packet for device d goes out on, if any (R279). -/
def routeOf (d : Nat) (s : State) : Option Nat :=
  let w := routeW d s
  let p := fld w 13 12
  let a := fld w 10 9
  if bit w 15 && flUp p s then some p
  else if !flUp p s && bit w 11 && flUp a s then some a
  else none

/-- A packet type of the completion class (R274). -/
def isCpl (typ : Nat) : Bool := decide (8 ≤ typ)

/-- Send a packet on port p now: SEQ assigned, kept for replay, a credit taken, counted (R275, R276). -/
def flEmit (p : Nat) (t : TxPacket) (s : State) : State :=
  count (bFl p) 0x10 (modFlue p (fun f => { f with
    replay := f.replay ++ [{ t with p := { t.p with seq := f.txSeq } }]
    txSeq := f.txSeq + 1
    reqCr := if isCpl t.typ then f.reqCr else f.reqCr - 1
    cplCr := if isCpl t.typ then f.cplCr - 1 else f.cplCr }) s)

/-- Port p may send a packet of this class now (R275, R276). -/
def flMaySend (p : Nat) (t : TxPacket) (s : State) : Bool :=
  flUp p s && decide ((flue p s).replay.length < 96) &&
    (if isCpl t.typ then decide (0 < (flue p s).cplCr) else decide (0 < (flue p s).reqCr))

/-- Work off the packets that wait on port p, in order within each class (R275). -/
def flPump (p : Nat) (s : State) : State :=
  (flue p s).waiting.foldl (fun t k =>
    if flMaySend p k t then flEmit p k t
    else modFlue p (fun f => { f with waiting := f.waiting ++ [k] }) t)
    (modFlue p (fun f => { f with waiting := [] }) s)

/-- Queue a packet on port p. -/
def flQueue (p : Nat) (t : TxPacket) (s : State) : State :=
  flPump p (modFlue p (fun f => { f with waiting := f.waiting ++ [t] }) s)

/-- A free transaction tag. -/
def freeTag (s : State) : Option Nat :=
  ((span 0 256).map fun i => (s.nextTag.toNat + i) % 256).find? fun t => s.outst.all fun kv => kv.1 != t

/-- Issue a request of this device (R279, R282): with no route, the answer UNROUTABLE is its own. -/
def flIssue (typ dest cnt : Nat) (payload : List Word) (o : Outst) (s : State) : State :=
  match freeTag s with
  | none => s
  | some t =>
    let s1 := { s with outst := mput t o s.outst, nextTag := BitVec.ofNat 8 (t + 1) }
    let k : TxPacket := { typ := typ, p := {
      dest := BitVec.ofNat 12 dest, src := BitVec.ofNat 12 (devNum s), len := BitVec.ofNat 4 ((payload.length + 3) / 4),
      tag := BitVec.ofNat 8 t, cnt := BitVec.ofNat 4 cnt, payload := payload } }
    match routeOf dest s with
    | some p => flQueue p k s1
    | none => addDue (.flueDrop t 4) s1

/-- A completion of this device for a request (R274); one that cannot be delivered is dropped (R279). -/
def flReply (typ : Nat) (req : Packet) (stat cnt : Nat) (payload : List Word) (s : State) : State :=
  match routeOf req.src.toNat s with
  | some p => flQueue p { typ := typ, p := {
      dest := req.src, src := BitVec.ofNat 12 (devNum s), len := BitVec.ofNat 4 ((payload.length + 3) / 4),
      tag := req.tag, stat := BitVec.ofNat 4 stat, cnt := BitVec.ofNat 4 cnt, payload := payload } } s
  | none => s

/-- CNT of a completion without data: words − 1 for a read or a write, else 0 (R274). -/
def rwCnt (typ : Nat) (k : Packet) : Nat := if typ ≤ 2 then k.cnt.toNat else 0

/-- The completion type that answers a request type. -/
def cplOf (typ : Nat) : Nat := typ + 7

/-- Forward a packet that is not for this device (R279). -/
def flForward (arr typ : Nat) (k : Packet) (s : State) : State :=
  let drop (stat : Nat) (t : State) : State :=
    let u := count (bFl arr) 0x1A t
    if isCpl typ then u else flReply (cplOf typ) k stat (rwCnt typ k) [] u
  if k.hops = 15 then drop 6 s
  else match routeOf k.dest.toNat s with
    | some p => flQueue p { typ := typ, p := { k with hops := k.hops + 1 } } s
    | none => drop 4 s

/-- Device d and word address of a flue window address (R281). -/
def flTarget (a : Nat) (s : State) : Nat × Nat :=
  let n := (a - 0x40000000) / 0x1000000
  (fld (rg 0x14 (0x200 + 2 * n) s) 11 0, fld (rg 0x14 (0x201 + 2 * n) s) 15 8 * 0x1000000 + a % 0x1000000)

/-- Send a read of n words at a window address. -/
def flRead (a n : Nat) (o : Outst) (s : State) : State :=
  let t := flTarget a s
  flIssue 1 t.1 (n - 1) (wordsOf 2 t.2 ++ [0, 0]) o s

/-- Pad a payload to whole blocks (R274). -/
def padBlocks (ws : List Word) : List Word := ws ++ List.replicate ((4 - ws.length % 4) % 4) 0

/-- Send a write of up to 8 words at a window address: two data blocks, zero-filled (R274). -/
def flWrite (a : Nat) (ws : List Word) (o : Outst) (s : State) : State :=
  let t := flTarget a s
  flIssue 2 t.1 (ws.length - 1) (wordsOf 2 t.2 ++ [0, 0] ++ ws ++ List.replicate (8 - ws.length) 0) o s

/-- Runs of consecutive addresses within aligned blocks of so many words, 0 for no such bound: first address and length. -/
def runsIn (blk : Nat) : List Nat → List (Nat × Nat)
  | [] => []
  | a :: r =>
    match runsIn blk r with
    | (b, n) :: t => if b = a + 1 && a / blk = b / blk then (a, n + 1) :: t else (a, 1) :: (b, n) :: t
    | [] => [(a, 1)]

/-- Flue tags are free for so many packets. -/
def tagsFree (n : Nat) (s : State) : Bool := decide (s.outst.length + n ≤ 256)

/-- Send reads of the words at window addresses, a packet for each run (R282): their tags and lengths in order. -/
def flReads (blk : Nat) (as : List Nat) (o : Nat → Nat → Outst) (s : State) : List (Nat × Nat) × State :=
  (runsIn blk as).foldl (fun r x =>
    match freeTag r.2 with
    | some t => (r.1 ++ [(t, x.2)], flRead x.1 x.2 (o x.1 x.2) r.2)
    | none => r) ([], s)

/-- Send writes of words at window addresses, a packet for each run (R282): their tags in order. -/
def flWrites (blk : Nat) (as : List Nat) (ws : List Word) (o : Nat → Outst) (s : State) : List Nat × State :=
  let r := (runsIn blk as).foldl (fun (r : (List Nat × List Word) × State) x =>
    match freeTag r.2 with
    | some t => ((r.1.1 ++ [t], r.1.2.drop x.2), flWrite x.1 (r.1.2.take x.2) (o x.1) r.2)
    | none => r) (([], ws), s)
  (r.1.1, r.2)

/-- Send an atomic access at a window address: SUBOP, width and operands (R274). -/
def flAtom (a subop : Nat) (wide : Bool) (dn dm : W32) (o : Outst) (s : State) : State :=
  let t := flTarget a s
  flIssue 3 t.1 0 (wordsOf 2 t.2 ++ [wd (b2n wide * 32768 + subop), 0] ++ wordsOf 2 dn.toNat ++ wordsOf 2 dm.toNat) o s

/-- Send an operation to a subchannel of another device (R284). -/
def flOperate (dev op sub addr : Nat) (parm : Word) (o : Outst) (s : State) : State :=
  flIssue 4 dev 0 ([wd sub, wd (op * 4096)] ++ wordsOf 2 addr ++ [parm, 0, 0, 0]) o s

/-- Packets that wait on a port that is down, and whose route is another port now, are lost (R280). -/
def flStranded (p : Nat) (s : State) : State :=
  if flUp p s then s
  else modFlue p (fun f => { f with waiting := f.waiting.filter fun t => (routeOf t.p.dest.toNat s).isNone }) s

/-- The port's link goes down. -/
def flDown (p : Nat) (s : State) : State := flStranded p (setRgBit (bFl p) 1 15 false s)

/-- Bring-up starts when the port is enabled, not retired, the device not isolated and boot over (R272, R278, R290, R359). -/
def flStart (p : Nat) (s : State) : State :=
  let ok := booted s && bit (rg (bFl p) 0 s) 15 && !bit (rg (bFl p) 1 s) 12 && !isolated s
  modFlue p (fun f => { f with bringup := ok, tries := 0, replays := 0 }) s

/-- The port retrains (R277): the link goes down and comes up by R272; the replay buffer is kept. -/
def flRetrain (p : Nat) (s : State) : State :=
  if bit (rg (bFl p) 1 s) 12 || !bit (rg (bFl p) 0 s) 15 then s
  else flStart p (count (bFl p) 0x18 (flDown p s))

/-- The port is retired (R278): RETIRED, FL_PORT_RET, the replay buffer and the waiting packets gone. -/
def flRetire (p : Nat) (s : State) : State :=
  let s1 := setRgBit (bFl p) 1 12 true (flDown p s)
  let s2 := modFlue p (fun f => { f with
    replay := [], waiting := [], bringup := false, tries := 0, reqCr := 32, cplCr := 32 }) s1
  raise (bFl p) 1 0 s2

/-- A lane of the port is retired (R278, R331): the width falls at the next bring-up, or the port retires. -/
def flRetireLane (p k : Nat) (s : State) : State :=
  let s1 := setRgBit (bFl p) 1 (8 + k) false s
  if fld (rg (bFl p) 1 s1) 11 8 = 0 then flRetire p s1 else flRetrain p s1

/-- A replay from a SEQ (R277): counted, FL_REPLAY; RETRY_MAX in a row of the same SEQ retrain the port. -/
def flReplay (p : Nat) (seq : BitVec 12) (s : State) : State :=
  let f := flue p s
  let n := if f.replaySeq = seq && 0 < f.replays then f.replays + 1 else 1
  let s1 := raise (bFl p) 4 0 (count (bFl p) 0x16 (modFlue p (fun x => { x with replays := n, replaySeq := seq }) s))
  if fld (rg (bFl p) 0 s) 3 0 ≤ n then flRetrain p s1 else s1

end Sys2Proof.Machine
end

