-- ==== Sys2Proof/Machine/Fifo.lean ====
section
/-! DEFINITION. FIFO words: arrival, pop, flush and drop (R197 to R201), and the delivery of a DSTAT by a status post
(R209, R263). -/
namespace Sys2Proof.Machine
open Sys2Proof

/-- Word address of FIFO_LVL or LN_FIFO_LVL of FIFO k. -/
def fifoLvlAddr (k : Nat) : Nat := fifoCtlAddr k + 1

/-- Count m words in FIFO_DROP_CNT; lane FIFOs have no such counter. -/
def fifoDropped (k m : Nat) (s : State) : State :=
  if fifoIsLane k then s else countBy (bGrt (k / 8)) (0x422 + 4 * (k % 8)) m s

/-- FIFO_LVL of FIFO k as read: DROPPING, DLATE and the words held. -/
def fifoLvl (k : Nat) (s : State) : Word :=
  wd (b2n (fifo k s).dropping * 32768 + fld (reg (fifoLvlAddr k) s) 14 14 * 16384 + (fifo k s).q.length)

/-- FIFO k is the TXD of a lane that discards the rest of a frame it cut short (R260). -/
def txdCut (k : Nat) (s : State) : Bool := fifoIsLane k && k % 4 == 2 && (lane ((k - 512) / 4) s).discard

/-- EOP words of a list. -/
def eops (ws : List FWord) : Nat := (ws.filter fun w => w.eop).length

/-- n EOP words at the head of TXD k are discarded: fewer frames are ahead of the one that an armed post covers, or that
frame itself is gone (R263). -/
def txdLost (k n : Nat) (s : State) : State :=
  if !(fifoIsLane k && k % 4 == 2) then s
  else modLane ((k - 512) / 4) (fun l =>
    let q := l.ahead - (if l.sending && l.txWords.any (fun w => w.eop) then 1 else 0)
    { l with ahead := l.ahead - min q n, lost := l.lost || (l.post.isSome && decide (q < n)) }) s

/-- A word arrives at a FIFO: in drop mode it is discarded, up to and including the next EOP word (R201). -/
def fifoPut (k : Nat) (w : FWord) (s : State) : State :=
  if txdCut k s then modLane ((k - 512) / 4) (fun l => { l with discard := !w.eop })
    (modFifo k (fun f => { f with dropping := f.dropping && !w.eop }) s)
  else if (fifo k s).dropping then fifoDropped k 1 (modFifo k (fun f => { f with dropping := !w.eop }) s)
  else modFifo k (fun f => { f with q := f.q ++ [w] }) s

/-- Several words arrive in order. -/
def fifoPuts (k : Nat) (ws : List FWord) (s : State) : State := ws.foldl (fun t w => fifoPut k w t) s

/-- The word a pop would take: none when the FIFO is empty or its head is reserved by a started burst (R248). -/
def fifoHead (k : Nat) (s : State) : Option FWord := if (fifo k s).rsv = 0 then (fifo k s).q.head? else none

/-- Take the head word out of FIFO k. -/
def fifoTake (k : Nat) (s : State) : State :=
  modFifo k (fun f => { f with
    q := f.q.drop 1
    mid := match f.q.head? with | some w => !w.eop | none => f.mid
    part := match f.q.head? with | some w => !w.eop | none => f.part }) s

/-- FLUSH: every word not reserved by a started burst is discarded, and drop mode ends (R200). -/
def fifoFlush (k : Nat) (s : State) : State :=
  modFifo k (fun f => { f with
    q := f.q.take f.rsv, dropping := false, part := f.part && !(f.q.drop f.rsv).any fun w => w.eop })
    (txdLost k (eops ((fifo k s).q.drop (fifo k s).rsv)) s)

/-- The sequencer learns of a drop on its outbound FIFO (R201): the FIFO's drop bit and the DRP flag. -/
def fifoMarkDrop (k : Nat) (s : State) : State :=
  if !fifoInbound k && !fifoIsLane k && (fifo k s).part then
    modGrate (k / 8) (fun g => { g with flags := g.flags ||| 1 })
      (modFifo k (fun f => { f with dropBit := true, part := false }) s)
  else s

/-- DROP (R201). -/
def fifoDropCmd (k : Nat) (s : State) : State :=
  let f := fifo k s
  let un := f.q.drop f.rsv
  if f.dropping then s
  else if (f.q.take f.rsv).any (fun w => w.eop) then
    setReg (fifoLvlAddr k) (setBit (reg (fifoLvlAddr k) s) 14 true) s
  else if un.any (fun w => w.eop) then
    let keep := (un.dropWhile fun w => !w.eop).drop 1
    fifoMarkDrop k (fifoDropped k (un.length - keep.length)
      (modFifo k (fun x => { x with q := x.q.take x.rsv ++ keep }) (txdLost k 1 s)))
  else
    fifoMarkDrop k (fifoDropped k un.length (modFifo k (fun x => { x with q := x.q.take x.rsv, dropping := true }) s))

/-- A DSTAT is on its way to the bellows of a subchannel (R92, R209). -/
def postTo (sub : Nat) (d : Byte) (pf : Bool) (s : State) : State :=
  modSch sub (fun x => { x with arriving := x.arriving ++ [(d, pf)] }) s

end Sys2Proof.Machine
end

