-- ==== Sys2Proof/Machine/LaneCore.lean ====
section
/-! DEFINITION. Chimney lanes: modes, link changes, bring-up, retirement, the status post, and transmit records (R254 to
R265, R340). -/
namespace Sys2Proof.Machine
open Sys2Proof

/-- Register offset of word n of lane l in its quad block. -/
def lnOfs (l n : Nat) : Nat := 0x100 + 0x100 * (l % 4) + n
/-- Lane register n. -/
def lnReg (l n : Nat) (s : State) : Word := rg (bQd (l / 4)) (lnOfs l n) s
/-- Store a lane register. -/
def setLn (l n : Nat) (v : Word) (s : State) : State := setRg (bQd (l / 4)) (lnOfs l n) v s
/-- Set or clear a bit of a lane register. -/
def setLnBit (l n i : Nat) (b : Bool) (s : State) : State := setRgBit (bQd (l / 4)) (lnOfs l n) i b s
/-- Count in a lane counter whose high word is at offset n. -/
def lnCount (l n : Nat) (s : State) : State := count (bQd (l / 4)) (lnOfs l n) s

/-- Lanes the bulk port holds: lanes 0 upward (R20, R254, R266). -/
def bulkLanes (s : State) : Nat := if s.bulk.on then 2 ^ s.bulk.width.toNat else 0
/-- PLL1 of quad q serves the bulk port. -/
def pll1Pcie (q : Nat) (s : State) : Bool := decide (4 * q < bulkLanes s)
/-- MODE of lane l as it reads: 1 while the bulk port holds the lane. -/
def laneMode (l : Nat) (s : State) : Nat := if l < bulkLanes s then 1 else fld (lnReg l 0 s) 15 12
/-- Lane l is retired (RET_LANE). -/
def laneRetired (l : Nat) (s : State) : Bool := if l < 16 then bit (rg 6 0x102 s) l else bit (rg 6 0x101 s) (l - 16)

/-- The lane's post delivers a DSTAT (R263); a stale delivery is discarded and counted (R209). -/
def lanePost (l : Nat) (d : Byte) (pf : Bool) (s : State) : State :=
  match (lane l s).post with
  | none => s
  | some sub =>
    let s1 := modLane l (fun x => { x with post := none, ahead := 0, lost := false, tgtOver := false }) s
    if (lane l s).tgtOver then lnCount l 0x8E s1 else postTo sub d pf s1

/-- A transmit record (R258) when LN_MODE.TXS is 1: status, bytes sent and the stamp; in stream mode there is none, and a
record that does not fit TXS is lost. -/
def txRecord (l : Nat) (st : Word) (bytes : Nat) (stamp : Nat) (s : State) : State :=
  if !bit (lnReg l 0 s) 3 || laneMode l s == 8 || decide (fifoFree (lnFifo l 3) s < 6) then s
  else fifoPuts (lnFifo l 3)
    ([st, wd bytes] ++ wordsOf 4 stamp |>.mapIdx fun i w => { w := w, eop := i == 5 }) s

/-- What is left of the frame being sent is discarded, up to its EOP word: what TXD holds of it now, the rest as it
arrives (R260). -/
def txDiscard (l : Nat) (s : State) : State :=
  let k := lnFifo l 2
  let q := (fifo k s).q
  let s1 := modLane l (fun x => { x with sending := false, txWords := [] }) s
  if (lane l s).txWords.any (fun w => w.eop) then s1
  else if q.any (fun w => w.eop) then modFifo k (fun f => { f with q := (f.q.dropWhile fun w => !w.eop).drop 1 }) s1
  else modLane l (fun x => { x with discard := true }) (modFifo k (fun f => { f with q := [] }) s1)

/-- Bytes of a run of words (R10). -/
def wordBytes (ws : List FWord) : Nat := (ws.map fun w => if w.odd then 1 else 2).foldl (· + ·) 0

/-- A lane in modes 2 to 6 carries Ethernet (R261). -/
def isEther (mode : Nat) : Bool := decide (2 ≤ mode) && decide (mode ≤ 6)

/-- Bytes a frame takes on the line after its start delimiter, FCS included (R258, R261). -/
def txBytes (l : Nat) (ws : List FWord) (s : State) : Nat :=
  let n := wordBytes ws
  let mode := lnReg l 0 s
  if isEther (laneMode l s) then (if bit mode 7 then max n 60 else n) + (if bit mode 6 then 4 else 0) else n

/-- The frame being sent is cut off by a link loss when so many of its bytes had left: its words are gone, and its record
says so (R258). -/
def txCut (l sent : Nat) (s : State) : State :=
  let x := lane l s
  if !x.sending then s
  else txRecord l 0x4000 (min sent (txBytes l x.txWords s)) x.txStamp.toNat (txDiscard l s)

/-- LINK of lane l changes: LN_LINK, source 4; a loss delivers a path fault to a pending post (R261, R263, R265). -/
def laneLink (l : Nat) (v : Bool) (sent : Nat) (s : State) : State :=
  if bit (lnReg l 2 s) 15 = v then s
  else
    let s1 := raise (bQd (l / 4)) (4 * (l % 4) + 1) (wd l) (laneEdge l 4 (setLnBit l 2 15 v s))
    if v then s1 else lanePost l 0x04 true (txCut l sent s1)

/-- Bring-up of lane l starts: link and lock down, no result of negotiation (R255, R331). How far a frame had got that it
cuts is a free value. -/
def laneBringup (l : Nat) (s : State) : State :=
  let f := if (lane l s).sending then freshWord s else (0, s)
  let s1 := laneLink l false f.1.toNat f.2
  setLn l 2 (lnReg l 2 s1 &&& 0x80FF) s1

/-- What an accepted LN_MODE write does beside its fields (R255). -/
def laneTake (l : Nat) (s : State) : State :=
  forAll (span (lnFifo l 0) 4) fifoFlush
    (lanePost l 0x04 true (modLane l (fun x => { x with sending := false, txWords := [], discard := false }) (laneBringup l s)))

/-- A lane is retired (R340): mode OFF, a pending post gets a path fault, RET_LANE. -/
def laneRetire (l : Nat) (s : State) : State :=
  let s0 := laneTake l s
  let s1 := setLn l 0 (setFld (lnReg l 0 s0) 15 12 0) s0
  let s2 := if l < 16 then setRgBit 6 0x102 l true s1 else setRgBit 6 0x101 (l - 16) true s1
  addDue (.retirePaths true l) s2

end Sys2Proof.Machine
end

