-- ==== Sys2Proof/Machine/Settle.lean ====
section
/-! DEFINITION. What the device owes at the end of a command is worked off here, first in first out, and the frame every
command's meaning has: the queue of commands stays as it is. -/
namespace Sys2Proof.Machine
open Sys2Proof

/-- A store of a context failed at its target (R134): fault 0x0F with the store's PC. -/
def storeFailed (sub : Nat) (st : Store) (s : State) : State :=
  stokerFaultAt sub 0x0F (st.addr.headD 0) st.pc.toNat s

/-- A packet of the store that tag t carries is acknowledged, or fails; the last one ends the store. -/
def flueStored (sub tag : Nat) (bad : Bool) (s : State) : State :=
  let t : Byte := BitVec.ofNat 8 tag
  match (ctx sub s).posted.find? fun st => st.tags.contains t with
  | none => s
  | some st =>
    let over_ := bad || st.tags.all fun u => u == t
    let s1 := modCtx sub (fun x => drainInto [] { x with
      posted := (x.posted.filter fun p => !(over_ && p.tags.contains t)).map fun p => { p with
        tags := p.tags.filter fun u => u != t } }) s
    if bad then storeFailed sub st s1 else s1

/-- FLERR of a STAT (R285): 1 unroutable or hop limit, 3 isolated; 0 otherwise. -/
def flErr (stat : Nat) : Nat := if stat = 4 || stat = 6 then 1 else if stat = 5 then 3 else 0

/-- An answer from the flue reaches its requester (R282, R284, R285). -/
def flueAnswer (tag stat cnt : Nat) (data : List Word) (s : State) : State :=
  match s.outst.find? fun kv => kv.1 == tag with
  | none => s
  | some (_, o) =>
    let s0 := { s with outst := merase tag s.outst }
    match o with
    | .load sub addr n =>
      if stat = 0 then
        unstall sub (modCtx sub (fun c => { c with got := c.got ++ (span addr n).zip data }) s0)
      else stokerFault sub (if stat = 3 then 0x0C else 0x0E) addr s0
    | .prefetch sub addr n =>
      if stat = 0 then modSch sub (fun x => { x with prefetch := x.prefetch ++ (span addr n).zip data }) s0 else s0
    | .atom sub addr n =>
      if stat = 0 then
        unstall sub (modCtx sub (fun c => { c with got := c.got ++ (span addr n).zip (if n = 1 then data.drop 1 else data) }) s0)
      else stokerFault sub (if stat = 3 then 0x0C else 0x0E) addr s0
    | .store sub => flueStored sub tag (stat != 0) s0
    | .draught ch a wr =>
      if stat = 0 then modChan ch (fun c => { c with got := c.got ++ [(tag, data)] }) s0
      else
        let d := (chan ch s0).fetching
        drHalt ch (if d then 7 else if stat = 3 then 6 else 5) a false wr d (stat != 3) true s0
    | .win who => { s0 with winGot := s0.winGot ++ [(who, stat, data)] }
    | .op who =>
      { s0 with rops := mmod {} who (fun r => { r with
        pend := false, flerr := BitVec.ofNat 2 (flErr stat), res := if stat = 0 then BitVec.ofNat 4 cnt else r.res }) s0.rops }
    | .wq n =>
      modWq n (fun q => { q with
        remote := false
        answer := q.answer.map fun a => { a with
          opres := if stat = 0 then BitVec.ofNat 4 cnt else a.opres
          aux := wd (flErr stat * 16 + (if stat = 0 then cnt else 0))
          dstat := if stat = 0 then a.dstat else a.dstat ||| 0x08 } }) s0
    | .resume sub => resumeDone sub (wd (flErr stat * 16 + (if stat = 0 then cnt else 0))) (stat == 0 && cnt == 0) s0

/-- Work off one thing the device owes. -/
def settleOne (d : Due) (s : State) : State :=
  match d with
  | .fault b i raw forced u rf => occur b i raw forced u rf s
  | .pathFault sub => pathFaultNow sub s
  | .retirePaths ln n => retirePathsNow ln n s
  | .abort sub c p x a => abort sub c p x a s
  | .retireSub sub => retireSubNow sub s
  | .resched k => resched k s
  | .turn sub => turn sub s
  | .advance sub => advance sub s
  | .resume by_ sub =>
    let r := operate 4 sub 0 0 0 s
    resumeDone by_ (wd r.1) (r.1 == 0) r.2
  | .remoteResume by_ dev sub => flOperate dev 4 sub 0 0 (.resume by_) s
  | .laneRetire l => laneRetire l s
  | .laneBringup l => laneBringup l s
  | .flueRetrain p => flRetrain p s
  | .flueLaneRetire p k => flRetireLane p k s
  | .flueCpl t st c ws => flueAnswer t st c ws s
  | .flueDrop t st => flueAnswer t st 0 [] s
  | .post n => postFirst n s

/-- Work off what the device owes, first in first out, at most so many. -/
def settle : Nat → State → State
  | 0, s => s
  | n + 1, s =>
    match s.due with
    | [] => s
    | d :: ds => settle n (settleOne d { s with due := ds })

/-- How many things one command works off at most. -/
def fuel : Nat := 2000

/-- The condition that a stall waits for has come (R112, R127). -/
def stallOver (sub : Nat) (c : Ctx) (s : State) : Bool :=
  match c.stall with
  | .posted => decide (c.posted.length < 4) && c.drain.isEmpty
  | .fence => c.posted.isEmpty
  | .div => c.div.isNone
  | .units => c.prods.isEmpty && c.div.isNone && c.fops.isEmpty
  | .fp ek => c.fops.all fun f => f.ed.toNat != ek
  | .loop => (span (sub / 16 * 16) 16).all fun n => (ctx n s).fops.all fun f => !f.shared
  | .push k => (fifo k s).rsvFree == 0 && decide (((s.ctx.map fun kc => (kc.2.pushes.filter fun p => p.fifo == k).length).foldl (· + ·) 0) < fifoFree k s)
  | .fire p => decide ((pin p s).fq.length + (pin p s).flying.length < 32)
  | .none | .load | .flue | .code _ | .pop _ _ _ _ => false

/-- Every context whose stall is over goes on. -/
def wake (s : State) : State :=
  forAll ((s.ctx.filter fun kc => stallOver kc.1 kc.2 s).map fun kc => kc.1) unstall s

/-- All that a command entails: what is owed, then the stalls that are over, then what those owe. -/
def afterwards (s : State) : State := settle fuel (wake (settle fuel s))

/-- The frame of every command's meaning while the device runs: the effect f, then all that it entails; the queue of
commands stays. A command that finds the device in reset, without its clock or without a core rail changes nothing. -/
def act (s : State) (f : State → State) : Host.Outcome State Fault Refusal :=
  .next (if up s then { afterwards (f s) with pending := s.pending } else s)

/-- The same for the commands that reach the device in any condition: resets, clocks, supplies and the TAP. -/
def actAlways (s : State) (f : State → State) : Host.Outcome State Fault Refusal :=
  .next { afterwards (f s) with pending := s.pending }

end Sys2Proof.Machine
end

