-- ==== Sys2Proof/Machine/Cfg.lean ====
section
/-! DEFINITION. The sources of accesses (R23), the count and log of configuration-class writes (R371), and staged pairs
(R391). -/
namespace Sys2Proof.Machine
open Sys2Proof

/-- The number of a source of R23: all contexts of a stoker are one source, each flue port is one. -/
def srcNo : Src → Nat
  | .i3c => 0
  | .bulk => 1
  | .flue p => 2 + p.toNat
  | .boot => 6
  | .stoker sub => 7 + stkOf sub.toNat

/-- The source word w3 of a write log entry (R371). -/
def logSrc (src : Src) (s : State) : Word :=
  match src with
  | .boot => 0
  | .i3c => 0x2000
  | .bulk => 0x4000
  | .flue _ => wd (0x6000 + s.flueSrc.toNat)
  | .stoker sub => wd (0x8000 + sub.toNat)

/-- A write of v arrives at the register at word address a (R371): when it is configuration class, CFG_GEN advances and the
write log takes an entry, whatever becomes of the write. -/
def cfgNote (src : Src) (a : Nat) (v : Word) (s : State) : State :=
  if !isCfg a then s
  else
    let g := s.sec.cfgGen
    setRgs 4 (0x4000 + 8 * (g % 1024)) (wordsOf 2 a ++ [v, logSrc src s] ++ wordsOf 4 s.ft.dtb)
      { s with sec := { s.sec with cfgGen := (g + 1) % 2 ^ 64 } }

/-- The meaning of a command that is a write of v to the register at word address a by a source. -/
def actWrite (src : Src) (a : Nat) (v : Word) (s : State) (f : State → State) : Host.Outcome State Fault Refusal :=
  act s fun t => f (cfgNote src a v t)

/-- Key of a source's staged high word of the pair whose high register is at word address a (R391). -/
def stageKey (src : Src) (a : Nat) : Nat := a * 1024 + srcNo src

/-- A write to the high register of a staged pair (R391). -/
def stageHigh (src : Src) (a : Nat) (v : Word) (s : State) : State :=
  { s with staged := mput (stageKey src a) v s.staged }

/-- The high word a commit uses: what the source staged since its last commit, else the one last committed; and nothing
stays staged (R391). DESIGN CHOICE (log 81): a commit refused as out of range uses the source's staged word up as well. -/
def stageTake (src : Src) (a : Nat) (last : Word) (s : State) : Word × State :=
  match s.staged.find? fun kv => kv.1 == stageKey src a with
  | some kv => (kv.2, { s with staged := merase (stageKey src a) s.staged })
  | none => (last, s)

end Sys2Proof.Machine
end

