-- ==== Sys2Proof/Machine/ChanRows.lean ====
section
/-! DEFINITION. The commands on subchannels (R45 to R83): the eight operations through a stoker's operation port, the
arrival of a CCW, timed waits, CCW timeouts, status posts, and the write of SCH_CUR_ADV. -/
namespace Sys2Proof.Machine
open Sys2Proof

/-- Key of a source's result at the operation port of stoker k (R47). -/
def oppKey (k : Nat) (src : Src) : Nat := k * 1024 + srcNo src

/-- Keep the result of an operation for its source (R47). -/
def oppPut (k : Nat) (src : Src) (op res : Nat) (s : State) : State :=
  let r : OppRes := { op := BitVec.ofNat 4 op, none := false, res := BitVec.ofNat 4 res }
  { s with opp := mset {} (oppKey k src) r s.opp }

/-- One operation written to the operation port of the stoker of its subchannel (R47 to R50): a START carries HSEQ 0
(R49). -/
def oppOperate (src : Src) (op sub addr : Nat) (parm : Word) (s : State) : State :=
  let r := operate op sub addr parm 0 s
  oppPut (stkOf sub) src op r.1 r.2

/-- START. -/
def execStart (src : Src) (sub : Sub) (addr : W32) (parm : Word) (s : State) : Host.Outcome State Fault Refusal :=
  act s (oppOperate src 1 sub.toNat addr.toNat parm)
/-- HALT. -/
def execHalt (src : Src) (sub : Sub) (s : State) : Host.Outcome State Fault Refusal :=
  act s (oppOperate src 2 sub.toNat 0 0)
/-- CLEAR. -/
def execClear (src : Src) (sub : Sub) (s : State) : Host.Outcome State Fault Refusal :=
  act s (oppOperate src 3 sub.toNat 0 0)
/-- RESUME. -/
def execResume (src : Src) (sub : Sub) (s : State) : Host.Outcome State Fault Refusal :=
  act s (oppOperate src 4 sub.toNat 0 0)
/-- MODIFY. -/
def execModify (src : Src) (sub : Sub) (addr : W32) (s : State) : Host.Outcome State Fault Refusal :=
  act s (oppOperate src 5 sub.toNat addr.toNat 0)
/-- TEST. -/
def execTest (src : Src) (sub : Sub) (s : State) : Host.Outcome State Fault Refusal :=
  act s (oppOperate src 6 sub.toNat 0 0)
/-- RETIRE-PATH. -/
def execRetirePath (src : Src) (sub : Sub) (path : BitVec 2) (s : State) : Host.Outcome State Fault Refusal :=
  act s (oppOperate src 7 sub.toNat 0 (wd path.toNat))
/-- RESTORE-PATH. -/
def execRestorePath (src : Src) (sub : Sub) (path : BitVec 2) (s : State) : Host.Outcome State Fault Refusal :=
  act s (oppOperate src 8 sub.toNat 0 (wd path.toNat))

/-- A write narrower than the 4-word operation (R47): MALFORMED, with LAST_OP 0. -/
def execOperationMalformed (src : Src) (stk : StokerNo) (s : State) : Host.Outcome State Fault Refusal :=
  act s (oppPut stk.toNat src 0 resMalformed)

/-- The four words of a full write to an operation port (R47, R48): a nonzero reserved field is MALFORMED. -/
def oppWrite (src : Src) (k : Nat) (ws : List Word) (s : State) : State :=
  let w0 := nth ws 0
  let op := fld w0 15 12
  if fld w0 11 4 ≠ 0 || op = 0 || 8 < op then oppPut k src op resMalformed s
  else oppOperate src op (16 * k + fld w0 3 0) (valOf [nth ws 1, nth ws 2]) (nth ws 3) s

/-- OPP_RES as a source reads it (R47). -/
def oppRes (src : Src) (k : Nat) (s : State) : Word :=
  let r : OppRes := mget {} (oppKey k src) s.opp
  wd (r.op.toNat * 4096 + b2n r.none * 16 + r.res.toNat)

/-- The 8 words of the CCW at a, whose read finds `err` now (R235, R239). -/
def ccwWords (sub a err : Nat) (s : State) : List Word × Bool × State :=
  match subPlace sub (a % 2 ^ 32) s with
  | .mem k =>
    let u := upset false k err s
    let r := subReads sub a 8 u.2
    (r.1, u.1 || r.2.1, r.2.2)
  | _ => subReads sub a 8 s

/-- The 8 words of an outstanding CCW fetch arrive (R56): the context's next channel step, or the CCW of the running data
chain. -/
def ccwArrive (sub err : Nat) (s : State) : State :=
  let x := sch sub s
  match x.phase with
  | .fetch f =>
    let r := ccwWords sub f.addr.toNat err s
    setStep sub (.arrived f r.1 r.2.1) r.2.2
  | _ =>
    match x.dcFetch with
    | some f =>
      let r := ccwWords sub f.addr.toNat err s
      dcArrive sub f r.1 r.2.1 r.2.2
    | none => s

/-- CCW_FETCH_COMPLETE. -/
def execCcwFetchComplete (e : FetchEnd) (s : State) : Host.Outcome State Fault Refusal :=
  act s (ccwArrive e.sub.toNat e.err.toNat)

/-- The instant a timed CCW waits for (R71): T_c for a NOP, T_c minus the lead else. -/
def timedDue (sub : Nat) (s : State) : Nat :=
  let x := sch sub s
  if wCode x.words = 2 then x.tc else x.tc - 8 * (schCfg sub 7 s).toNat

/-- The instant of a timed CCW has come (R71): the DTB has reached it. -/
def timedExpiry (sub : Nat) (s : State) : State :=
  if (sch sub s).phase == .timed then
    setStep sub .expired { s with ft := { s.ft with dtb := max s.ft.dtb (timedDue sub s) } }
  else s

/-- TIMED_WAIT_EXPIRY. -/
def execTimedWaitExpiry (sub : Sub) (s : State) : Host.Outcome State Fault Refusal := act s (timedExpiry sub.toNat)

/-- One CCW has been current for more than TMO ticks (R78): TIMEOUT. TMO 0 disables it. -/
def ccwTimeout (sub : Nat) (s : State) : State :=
  let tmo := fld (schCfg sub 6 s) 7 0
  if tmo ≠ 0 && decide (tmo < (sch sub s).tmoTicks) && ((sch sub s).st == .active || (sch sub s).st == .halted) then
    abort sub 0x04 0 0 (sch sub s).lastAux s
  else s

/-- CCW_TIMEOUT. -/
def execCcwTimeout (sub : Sub) (s : State) : Host.Outcome State Fault Refusal := act s (ccwTimeout sub.toNat)

/-- The subchannel's first status posts, when its turn at the completion queue has come and there is room (R82, R325). -/
def statusPost (sub : Nat) (s : State) : State :=
  match (sch sub s).held with
  | [] => s
  | st :: _ => addDue (.post st.cq) s

/-- STATUS_POST. -/
def execStatusPost (sub : Sub) (s : State) : Host.Outcome State Fault Refusal := act s (statusPost sub.toNat)

/-- A write to SCH_CUR_ADV (R65): the cursor of the running procedure advances; a write of 0 is ignored. -/
def curAdv (sub : Nat) (val : Word) (s : State) : State :=
  if val = 0 || (sch sub s).phase != .proc then s
  else addDue (.advance sub) (modSch sub (fun x => { x with advLeft := x.advLeft + val.toNat }) s)

/-- SCH_CUR_ADV_WRITE. -/
def execSchCurAdvWrite (_src : Src) (sub : Sub) (val : Word) (s : State) : Host.Outcome State Fault Refusal :=
  act s (curAdv sub.toNat val)

end Sys2Proof.Machine
end

