-- ==== Sys2Proof/Machine/Bellows.lean ====
section
/-! DEFINITION. The bellows (R84 to R107): lookahead and prefetch, speculative entry, the delivery of a deferred status with
confirmation or undo, and tentative horizons. -/
namespace Sys2Proof.Machine
open Sys2Proof

/-- The global address of a place; 0 for none. -/
def placeAddr : Place → Nat
  | .mem k => k
  | .reg a => a
  | .flue a => a
  | .unmapped => 0

/-- The place is a flue window. -/
def isFluePlace : Place → Bool | .flue _ => true | _ => false
/-- The place is memory. -/
def isMemPlace : Place → Bool | .mem _ => true | _ => false

/-- BLW_CTL of the stoker of a subchannel. -/
def blwCtl (sub : Nat) (s : State) : Word := rg (bStk (stkOf sub)) 0x900 s

/-- The current CCW of the program stands, so that a path leads on from it. -/
def lookBase (x : Sch) : Bool :=
  x.st == .active && !x.words.isEmpty && x.dcFetch.isNone &&
    (match x.phase with
     | .proc | .deferred | .yielded | .timed | .tickWait | .remote | .heldWait _ => true
     | .step .perform | .step .expired | .step (.ret _ _ _) | .step (.invalid _) | .step (.enter _) | .step (.held _) => true
     | .none | .fetch _ | .step (.goto _) | .step (.arrived _ _ _) => false)

/-- The address the predicted path leads to after a CCW at `a` (R88); none where the lookahead ends. -/
def pathAfter (sub a : Nat) (ws : List Word) (s : State) : Option Nat :=
  let c := wCode ws
  if wFlag ws 6 then none
  else if c = 1 then some (wDaddr ws)
  else if c = 0 || (6 ≤ c && c ≤ 15) then none
  else if wFlag ws 1 then some (a + 8)
  else if !wFlag ws 0 then none
  else some (a + (if wProc ws && predSkip sub s then 16 else 8))

/-- R63 refuses the IDA list address or the command table address of a CCW: the lookahead ends before it (R88). -/
def lookRefused (sub : Nat) (ws : List Word) (s : State) : Bool :=
  wProc ws && ((wFlag ws 4 && !ctlOk sub (wDaddr ws) s) || !ctlOk sub (cmdAddr sub (wCode ws) s) s)

/-- The next address the lookahead fetches, and whether a TIC led to it. -/
def lookNext (sub : Nat) (s : State) : Option (Nat × Bool) :=
  let x := sch sub s
  match x.look.getLast? with
  | some c =>
    if lookRefused sub c.words s then none
    else (pathAfter sub c.addr.toNat c.words s).map fun a => (a % 2 ^ 32, wCode c.words == 1)
  | none =>
    if wFlag x.words 6 then
      (if wFlag x.words 1 || wFlag x.words 0 then
        some ((x.ccw.toNat + (if !wFlag x.words 1 && wProc x.words && predSkip sub s then 16 else 8)) % 2 ^ 32, false) else none)
    else (pathAfter sub x.ccw.toNat x.words s).map fun a => (a % 2 ^ 32, wCode x.words == 1)

/-- One CCW of the predicted path is fetched into the lookahead buffer (R88): none with LOOK = 0, at DEPTH, past an end of
the path, at an address R63 refuses, or where the read fails. -/
def lookFetch (sub : Nat) (s : State) : State :=
  let x := sch sub s
  if !bit (blwCtl sub s) 0 || fld (blwCtl sub s) 6 4 ≤ x.look.length || !lookBase x then s
  else match lookNext sub s with
    | none => s
    | some (a, tic) =>
      if !ctlOk sub a s then s
      else
        let r := subReadsBy true sub a 8 s
        if r.2.1 || (tic && wCode r.1 == 1) then r.2.2
        else
          let e := readEntryBy true sub r.1 r.2.2
          let ent := if wProc r.1 && e.2.1 && !e.2.2.1 then some e.1 else none
          modSch sub (fun y => { y with look := y.look ++ [{ addr := BitVec.ofNat 32 a, words := r.1, entry := ent }] })
            e.2.2.2

/-- LOOKAHEAD_FETCH. -/
def execLookaheadFetch (sub : Sub) (s : State) : Host.Outcome State Fault Refusal := act s (lookFetch sub.toNat)

/-- Word i of a segment at a with the CCW's address mode (R61). -/
def segAddr (ws : List Word) (a i : Nat) : Nat :=
  let blk := 2 ^ wCsize ws
  if wAmode ws = 1 then a else if wAmode ws = 2 then a / blk * blk + (a % blk + i) % blk else a + i

/-- One word is read ahead: from memory at once, an uncorrectable one not; through a flue window by a request (R89). -/
def prefetchWord (sub a : Nat) (s : State) : State :=
  match subPlace sub a s with
  | .mem k =>
    let r := memReadQuiet k s
    if r.2.1 then r.2.2 else modSch sub (fun y => { y with prefetch := y.prefetch ++ [(k, r.1)] }) r.2.2
  | .flue x => flRead x 1 (.prefetch sub x 1) s
  | .reg _ | .unmapped => s

/-- The first words of the next CCW's segment are read ahead, when it is an output procedure without IDA (R89). -/
def prefetchData (sub : Nat) (s : State) : State :=
  if !bit (blwCtl sub s) 0 || !bit (blwCtl sub s) 2 then s
  else match (sch sub s).look with
    | c :: _ =>
      (match c.entry with
       | some e =>
         if entDir e != 2 || wFlag c.words 4 then s
         else
           let as := (span 0 (min 16 (segWords (wCount c.words)))).map fun i => segAddr c.words (wDaddr c.words) i % 2 ^ 32
           if as.all (fun a => dataOk sub a s) then
             forAll as (prefetchWord sub) (modSch sub (fun y => { y with prefetch := [], preFor := c.addr }) s)
           else s
       | none => s)
    | [] => s

/-- A store that the context has committed reaches these addresses: lookahead slots and prefetched words that it overlaps,
and the slots after them, are fetched again (R90). -/
def lookDrop (sub : Nat) (as : List Nat) (s : State) : State :=
  let key (a : Nat) : Nat := placeAddr (subPlace sub (a % 2 ^ 32) s)
  let hit (c : LookCcw) : Bool :=
    ((span c.addr.toNat 8).any fun a => as.contains (key a)) ||
    (c.entry.isSome && ((span (cmdAddr sub (wCode c.words) s) 2).any fun a => as.contains (key a)))
  modSch sub (fun x => { x with
    look := x.look.takeWhile fun c => !hit c
    prefetch := x.prefetch.filter fun p => !as.contains p.1 }) s

/-- DATA_PREFETCH. -/
def execDataPrefetch (sub : Sub) (s : State) : Host.Outcome State Fault Refusal := act s (prefetchData sub.toNat)

/-- X of R94: the first CCW of the lookahead buffer that is no TIC, with the number of TICs before it. -/
def lookX : List LookCcw → Nat → Option (LookCcw × Nat)
  | [], _ => none
  | c :: cs, n => if wCode c.words = 1 then lookX cs (n + 1) else some (c, n)

/-- X passes every program-check test and its own rules for a speculative entry (R94): a procedure code with a valid entry
that has SPEC, no SUSP; and so do the TICs before it (R85). -/
def specOk (sub : Nat) (c : LookCcw) (tics : Nat) (s : State) : Bool :=
  match c.entry with
  | none => false
  | some e =>
    ((sch sub s).look.take tics).all (fun t => (progCheck t.words false false true true (0, 0)).isNone) && wProc c.words && bit e.1 11 && !wFlag c.words 6 &&
      (progCheck c.words false (tics != 0) (!wFlag c.words 4 || ctlOk sub (wDaddr c.words) s) true e).isNone

/-- T_c of X (R71). -/
def specTc (c : LookCcw) (s : State) : Nat := s.ft.tickDtb + wToff c.words

/-- R71 would enter X now and it is not late. -/
def specTimeOk (sub : Nat) (c : LookCcw) (s : State) : Bool :=
  !wFlag c.words 7 ||
    (decide (specTc c s ≤ s.ft.dtb + 8 * (schReg sub 7 s).toNat) && decide (s.ft.dtb ≤ specTc c s))

/-- The subchannel with X as its current CCW, its segment opened: what the path reads, and what a confirmation takes. -/
def withX (sub : Nat) (c : LookCcw) (s : State) : Option (Word × Byte) × State :=
  openSeg sub (modSch sub (fun x => { x with
    ccw := c.addr, first := c.addr, words := c.words, entry := c.entry, cfg := cfgNow sub s }) s)

/-- Speculative entry into X's procedure (R94, R95): the checkpoint is taken, the context gets the entry registers, and the
path begins. -/
def specEnter (sub : Nat) (c : LookCcw) (s : State) : State :=
  let r := withX sub c s
  match r.1 with
  | some _ => s
  | none =>
    let y := sch sub r.2
    let s1 := { r.2 with sch := s.sch }
    let p := entryPath sub r.2
    let e0 := if wFlag c.words 7 then specTc c s1 else s1.ft.dtb
    let pc := match c.entry with | some e => entPc e | none => 0
    let s2 := modStk (stkOf sub) (fun x => { x with
      spec := some { owner := ctxOf sub, x := c, ckpt := ctx sub s1, curAddr := y.curAddr, curCnt := y.curCnt, more := y.more
                     idaPtr := y.idaPtr, cfg := y.cfg } }) s1
    let s3 := modCtx sub (entryRegs c.words c.addr (nth c.words 1) p.1 p.2 0 e0 pc) s2
    setRun sub .ready (blwCount sub 0x4 1 s3)

/-- The bellows enters the next procedure speculatively when all of R94 holds. -/
def specEntry (sub : Nat) (s : State) : State :=
  let x := sch sub s
  if x.phase == .deferred && x.st == .active && !x.haltReq && !x.pathReq && !x.noSpec && bit (blwCtl sub s) 0 && bit (blwCtl sub s) 1 &&
      (stk (stkOf sub) s).spec.isNone && wFlag x.words 0 && !wFlag x.words 1 && stkRuns (stkOf sub) s then
    (match lookX x.look 0 with
     | some (c, n) => if specOk sub c n s && specTimeOk sub c s then specEnter sub c s else s
     | none => s)
  else s

/-- SPECULATIVE_ENTRY. -/
def execSpeculativeEntry (sub : Sub) (s : State) : Host.Outcome State Fault Refusal := act s (specEntry sub.toNat)

/-- Row 7 or 8 of R58 applies to a delivered DSTAT, and whether it skips: the outcome the prediction is held against
(R103). -/
def rowSeven (sub : Nat) (d : Byte) (pf : Bool) (s : State) : Option Bool :=
  let x := sch sub s
  if pf || x.pfReq || x.haltReq || x.pathReq || x.pathLater then none
  else if bit d 2 || bit d 3 || bit d 4 || bit d 0 || !bit d 7 then none
  else if x.lastResid ≠ 0 && !wFlag x.words 2 then none
  else if wFlag x.words 1 || !wFlag x.words 0 then none
  else some (bit d 6)

/-- The path's FEV status must wait for a held one (R82). -/
def fevWaits (sub : Nat) (c : LookCcw) (s : State) : Bool :=
  wFlag c.words 5 && (sch sub s).held.any fun h => h.endc == 3 || h.endc == 5

/-- A DSTAT reaches the bellows of a subchannel (R92, R93, R103 to R105): held while no return is pending; else the path is
confirmed on a hit, when its FEV status need not wait for a held one (R82), or undone, and the return completes. A hit that
would pass the runaway limit is a program check, so a miss (R57, R103). -/
def deliver (sub : Nat) (d : Byte) (pf : Bool) (s : State) : State :=
  let x := sch sub s
  if x.phase != .deferred then
    let s1 := doIf x.delivered.isSome (setRgBit (bStk (stkOf sub)) (blwOfs sub 3) 14 true) s
    modSch sub (fun y => { y with delivered := some (d, pf) }) s1
  else
    let hit : Option Spec :=
      match specOf sub s, rowSeven sub d pf s with
      | some p, some skip =>
        if skip == predSkip sub s && decide (x.runaway + 1 + ticsBefore x ≤ (rg (bStk (stkOf sub)) 0x408 s).toNat) then some p
        else none
      | _, _ => none
    match hit with
    | some p =>
      if fevWaits sub p.x s then modSch sub (fun y => { y with phase := .heldWait (.conf d) }) s else confirm sub p d s
    | none => setStep sub (.ret d pf true) (squash sub s)

/-- The oldest DSTAT on its way to the bellows arrives. -/
def deliverNext (sub : Nat) (s : State) : State :=
  match (sch sub s).arriving with
  | [] => s
  | (d, pf) :: rest => deliver sub d pf (modSch sub (fun x => { x with arriving := rest }) s)

/-- DEFERRED_STATUS_DELIVERY. -/
def execDeferredStatusDelivery (sub : Sub) (s : State) : Host.Outcome State Fault Refusal := act s (deliverNext sub.toNat)

/-- The horizon of a tentative entry, 32 ns before its fire time, passes unconfirmed (R101): the entry goes, its path is
squashed, and the bellows does not enter again for the same return. -/
def horizon (p time : Nat) (s : State) : State :=
  match (pin p s).fq.find? fun e => e.tent && e.time == time with
  | none => s
  | some e =>
    let s1 := modPin p (fun q => { q with fq := q.fq.filter fun x => !(x.tent && x.time == time && x.sub == e.sub) })
      (reachFine (time - 512) s)
    match e.sub with
    | some sub =>
      if (specOf sub s1).isSome then
        squash sub (blwCount sub 0xA 1 (modSch sub (fun x => { x with noSpec := true }) s1))
      else s1
    | none => s1

/-- TENTATIVE_HORIZON. -/
def execTentativeHorizon (pin : DevPin) (time : W64) (s : State) : Host.Outcome State Fault Refusal :=
  act s (horizon pin.toNat time.toNat)

end Sys2Proof.Machine
end

