-- ==== Sys2Proof/Machine/Events.lean ====
section
/-! DEFINITION. The hearth event controllers (R291 to R299): sources, evaluation and presentation, claims and dones of the
stokers (R131, R132), orphans, and the registers whose writes do more than store. -/
namespace Sys2Proof.Machine
open Sys2Proof

/-- A source raises an edge (R291 to R293): a grate's or lane's through its slot only, and lost at a hearth that does not
own the resource. -/
def sourceEdge (h n : Nat) (s : State) : State :=
  if evIsLevel n then s
  else if 0x100 ≤ n && n < 0x300 then
    let w := rg (bHrt h) (0x20 + (n - 0x100) / 16) s
    if !bit w 15 || n % 16 == 15 then s
    else if grateOwner (fld w 5 0) s / 8 = h then evEdge h n s else count (bHrt h) 0x408 s
  else if 0x300 ≤ n && n < 0x380 then
    let w := rg (bHrt h) (0x40 + (n - 0x300) / 8) s
    if !bit w 15 || n % 8 == 7 then s
    else if ((lane (fld w 5 0) s).own.map fun f => f.toNat / 8) == some h then evEdge h n s else count (bHrt h) 0x408 s
  else evEdge h n s

/-- EVENT_SOURCE_EDGE. -/
def execEventSourceEdge (h : HearthNo) (n : EvNo) (s : State) : Host.Outcome State Fault Refusal :=
  act s (sourceEdge h.toNat n.toNat)

/-- A level source asserts or deasserts. -/
def sourceLevel (h n : Nat) (v : Bool) (s : State) : State :=
  if evIsLevel n then { s with evLevel := mset false (h * 1024 + n) v s.evLevel } else s

/-- EVENT_SOURCE_LEVEL_CHANGE. -/
def execEventSourceLevelChange (h : HearthNo) (n : EvNo) (asserted : Bool) (s : State) :
    Host.Outcome State Fault Refusal :=
  act s (sourceLevel h.toNat n.toNat asserted)

/-- A stoker that takes no events: in reset, held or retired (R298). -/
def tgtGone (k : Nat) (s : State) : Bool := stkHeld k s || stkInReset k s || stkRetired k s

/-- EV_CUR of stoker k: the highest number in service (R131). -/
def evCur (k : Nat) (s : State) : Nat := ((stk k s).insvc.map fun e => e.1).foldl max 0

/-- The fallback of hearth h: a stoker's number, or none for the host (R299). -/
def fallback (h : Nat) (s : State) : Option Nat :=
  let v := fld (rg (bHrt h) 4 s) 6 0
  if v < 64 then some (64 * h + v) else none

/-- Source n of hearth h is an orphan (R298). -/
def isOrphan (h n : Nat) (s : State) : Bool := mget false (h * 1024 + n) s.evOrphan

/-- Sources with a pending edge. -/
def edgeSources (h : Nat) (s : State) : List Nat :=
  ((span 0 64).filter fun w => rg (bHrt h) (0x140 + w) s ≠ 0).flatMap fun w =>
    (span (16 * w) 16).filter fun n => !evIsLevel n && evGet (bHrt h) 0x140 n s

/-- The sources an evaluation may present: pending, enabled, in service nowhere (R294). -/
def evCandidates (h : Nat) (s : State) : List Nat :=
  (edgeSources h s ++ levelSources s h).filter fun n => evPending h n s && evEn h n s && !evInSvc h n s

/-- The number an evaluation latches for stoker k: the highest candidate above EV_CUR that is routed to it, or is an orphan
whose fallback it is (R294). -/
def evPresent (k : Nat) (cands : List Nat) (s : State) : Nat :=
  let h := hrtOf k
  if tgtGone k s || 16 ≤ (stk k s).insvc.length then 0
  else (cands.filter fun n => decide (evCur k s < n) &&
    (evTarget h n s == k % 64 || (isOrphan h n s && fallback h s == some k))).foldl max 0

/-- Contexts in WAIT with EV wake when the request line is asserted (R129, R130). -/
def wakeEv (k : Nat) (s : State) : State :=
  forAll (span (16 * k) 16) (fun sub t =>
    if (ctx sub t).run == .wait && (ctx sub t).waitEv then
      setRun sub .ready (modCtx sub (fun c => { c with waitc := 1, waitEv := false, waitTk := false }) t)
    else t) s

/-- Latch the presented number of a stoker; a full one counts. -/
def evLatch (k : Nat) (cands : List Nat) (s : State) : State :=
  let n := evPresent k cands s
  let s1 := { s with presented := mset 0 k n s.presented }
  let s2 := doIf (decide (16 ≤ (stk k s).insvc.length)) (count (bHrt (hrtOf k)) 0x40A) s1
  if n = 0 then s2 else wakeEv k s2

/-- An evaluation of hearth h (R294, R298, R301): enabled edges routed to the host leave, orphans that no longer pend end,
and every target's latch is replaced. -/
def evEvaluate (h : Nat) (s : State) : State :=
  let s1 := evRoute h (evForward h s)
  let s2 := { s1 with evOrphan := s1.evOrphan.filter fun kv => kv.1 / 1024 != h || evPending h (kv.1 % 1024) s1 }
  let cands := evCandidates h s2
  forAll (span (64 * h) 64) (fun k => evLatch k cands) s2

/-- EVENT_EVALUATION. -/
def execEventEvaluation (h : HearthNo) (s : State) : Host.Outcome State Fault Refusal := act s (evEvaluate h.toNat)

/-- A read of EVNUM of stoker k (R131, R295): a context of the stoker takes the latched number into service; any other
source gets 0. -/
def evnumRead (src : Src) (k : Nat) (s : State) : Word × State :=
  match src with
  | .stoker sub =>
    let n := mget 0 k s.presented
    if stkOf sub.toNat ≠ k || n = 0 then (0, s)
    else
      let s1 := modStk k (fun x => { x with insvc := x.insvc ++ [(n, ctxOf sub.toNat)], claims := x.claims ++ [n] })
        { s with presented := merase k s.presented }
      (wd n, trace sub.toNat 6 (pcOf sub.toNat s) n s1)
  | _ => (0, s)

/-- EVNUM_READ. -/
def execEvnumRead (src : Src) (stk : StokerNo) (s : State) : Host.Outcome State Fault Refusal :=
  act s fun t => (evnumRead src stk.toNat t).2

/-- A write of EVDONE of stoker k (R132): an event in service there completes; anything else sets EVBAD. -/
def evdoneWrite (src : Src) (k : Nat) (v : Word) (s : State) : State :=
  let bad := setRgBit (bStk k) 1 5 true s
  match src with
  | .stoker sub =>
    if stkOf sub.toNat ≠ k || !(stk k s).insvc.any (fun e => e.1 == v.toNat) then bad
    else trace sub.toNat 7 (pcOf sub.toNat s) v.toNat
      (modStk k (fun x => { x with
        insvc := x.insvc.filter fun e => e.1 != v.toNat, dones := x.dones ++ [v.toNat] }) s)
  | _ => bad

/-- EVDONE_WRITE. -/
def execEvdoneWrite (src : Src) (stk : StokerNo) (val : Word) (s : State) : Host.Outcome State Fault Refusal :=
  act s (evdoneWrite src stk.toNat val)

/-- The oldest claim of stoker k reaches its controller (R295): the source is in service and stops pending; a source
already in service at another stoker is a duplicate delivery. -/
def claimArrive (k : Nat) (s : State) : State :=
  match (stk k s).claims with
  | [] => s
  | n :: rest =>
    let b := bHrt (hrtOf k)
    let s1 := count b 0x400 (modStk k (fun x => { x with claims := rest }) s)
    let dup := s.stk.any fun ks => ks.1 != k && hrtOf ks.1 == hrtOf k && stkHolds ks.1 n s
    let s2 := doIf dup (count b 0x404) s1
    let s3 := evPut b 0x180 n true (evPut b 0x140 n false s2)
    { s3 with evOrphan := merase (hrtOf k * 1024 + n) s3.evOrphan }

/-- EVENT_CLAIM_ARRIVAL. -/
def execEventClaimArrival (stk : StokerNo) (s : State) : Host.Outcome State Fault Refusal := act s (claimArrive stk.toNat)

/-- Claims of stoker k arrive, the oldest first, up to that of event n. -/
def claimsBefore (n k : Nat) : Nat → State → State
  | 0, s => s
  | m + 1, s => if (stk k s).claims.contains n then claimsBefore n k m (claimArrive k s) else s

/-- The oldest EVDONE of stoker k reaches its controller (R296), never before its claim: the source leaves service with the
last stoker that holds it. -/
def doneArrive (k : Nat) (s : State) : State :=
  match (stk k s).dones with
  | [] => s
  | n :: rest =>
    let s1 := claimsBefore n k (stk k s).claims.length s
    hearthDone (hrtOf k) n (modStk k (fun x => { x with dones := rest }) s1)

/-- EVENT_DONE_ARRIVAL. -/
def execEventDoneArrival (stk : StokerNo) (s : State) : Host.Outcome State Fault Refusal := act s (doneArrive stk.toNat)

/-- A write of 1s to EVC_PEND word w clears pending edges, which ends their orphan state (R293, R298). -/
def pendClear (h w : Nat) (val : Word) (s : State) : State :=
  forAll ((span (16 * w) 16).filter fun n => bit val (evBit n) && !evIsLevel n) (fun n t =>
    let u := evPut (bHrt h) 0x140 n false t
    { u with evOrphan := merase (h * 1024 + n) u.evOrphan }) s

/-- EVC_PEND_CLEAR. -/
def execEvcPendClear (_src : Src) (h : HearthNo) (w : BitVec 6) (val : Word) (s : State) :
    Host.Outcome State Fault Refusal :=
  act s (pendClear h.toNat w.toNat val)

/-- A write of EVC_SWSET: software source NUM, 1 to 127; 0 is reserved. -/
def evcSwset (h : Nat) (val : Word) (s : State) : State :=
  let n := fld val 6 0
  if n = 0 then setRgBit (bHrt h) 0 7 true s else evEdge h n s

/-- EVC_SWSET. -/
def execEvcSwset (_src : Src) (h : HearthNo) (val : Word) (s : State) : Host.Outcome State Fault Refusal :=
  act s (evcSwset h.toNat val)

/-- A write of EVC_GMAP or EVC_LMAP slot k (R292): refused as a whole with BADW where another valid slot of the hearth
names the resource; a lane above 31 is a reserved value. -/
def slotWrite (h : Nat) (isLane : Bool) (k : Nat) (val : Word) (s : State) : State :=
  let b := bHrt h
  let base := if isLane then 0x40 else 0x20
  let res := fld val 5 0
  let taken := (span 0 (if isLane then 16 else 32)).any fun j =>
    j != k && bit (rg b (base + j) s) 15 && fld (rg b (base + j) s) 5 0 == res
  let bad := setRgBit b 0 7 true s
  if bit val 15 && taken then bad
  else if isLane && 31 < res then
    (let old := fld (rg b (base + k) s) 5 0
     let dup := (span 0 16).any fun j => j != k && bit (rg b (base + j) s) 15 && fld (rg b (base + j) s) 5 0 == old
     if bit val 15 && dup then bad else setRgBit b (base + k) 15 (bit val 15) bad)
  else setRg b (base + k) (val &&& 0x803F) s

/-- EVC_SLOT_WRITE. -/
def execEvcSlotWrite (src : Src) (h : HearthNo) (lane : Bool) (k : BitVec 5) (val : Word) (s : State) :
    Host.Outcome State Fault Refusal :=
  let i := if lane then k.toNat % 16 else k.toNat
  actWrite src (ra (bHrt h.toNat) ((if lane then 0x40 else 0x20) + i)) val s (slotWrite h.toNat lane i val)

/-- A source has pended for 1 µs at a target in reset or retired (R298, R299): it is marked orphan, counted, and raises
EVC_ORPHAN; a fallback that is the host, or is itself gone, gets host event 0xFE. -/
def orphan (h n : Nat) (s : State) : State :=
  if !evPending h n s || isOrphan h n s || 64 ≤ evTarget h n s || !tgtGone (64 * h + evTarget h n s) s then s
  else
    let s1 := evPut (bHrt h) 0x1C0 n true (count (bHrt h) 0x406 { s with evOrphan := mset false (h * 1024 + n) true s.evOrphan })
    let s2 := raise (bHrt h) 3 0 s1
    match fallback h s with
    | none => hevEdge 0xFE s2
    | some k => if tgtGone k s then hevEdge 0xFE s2 else s2

/-- ORPHAN_TIMEOUT. -/
def execOrphanTimeout (h : HearthNo) (n : EvNo) (s : State) : Host.Outcome State Fault Refusal :=
  act s (orphan h.toNat n.toNat)

/-- EVC_TGT of target t as read. -/
def evcTgt (h t : Nat) (s : State) : Word :=
  let n := mget 0 (64 * h + t) s.presented
  wd (b2n (n != 0) * 32768 + (stk (64 * h + t) s).insvc.length * 1024 + n)

end Sys2Proof.Machine
end

