-- ==== Sys2Proof/Machine/HostEv.lean ====
section
/-! DEFINITION. The host event controller (R300 to R304): evaluation and signals, claims and dones, in-band interrupts and
HOSTWAKE_N; and the moderation rounds of the completion queues (R327). -/
namespace Sys2Proof.Machine
open Sys2Proof

/-- Change the host event controller's own state. -/
def modHev (f : Hev → Hev) (s : State) : State := { s with hev := f s.hev }

/-- The device signals (R303): an in-band interrupt when IBI is 1, the device has a dynamic address and the controller has
enabled target interrupts; MSI-X vector 64 when MSIX is 1. Held while HOSTWAKE_N is low (R304). -/
def hevSignal (s : State) : State :=
  if s.hev.wake then modHev (fun h => { h with heldSig := true }) s
  else
    let ctl := rg 2 0 s
    let s1 := modHev (fun h => { h with
      lastSig := hevNext s, ibi := h.ibi || (bit ctl 0 && s.i3c.da.isSome && s.i3c.tint) }) s
    doIf (bit ctl 1) (msixSend 64) s1

/-- A claim or done has left an enabled event pending above HEV_CUR, or none (R303). -/
def hevAfter (s : State) : State :=
  if hevNext s = 0 then modHev (fun h => { h with lastSig := 0 }) s else hevSignal s

/-- An evaluation of the host controller (R302, R303): it latches the number a claim would return, and signals when that
number is above the one last signalled. -/
def hevEvaluate (s : State) : State :=
  let s1 := modHev (fun h => { h with latch := BitVec.ofNat 8 (hevNext s) }) s
  if hevNext s = 0 then modHev (fun h => { h with lastSig := 0 }) s1
  else if s.hev.lastSig < hevNext s then hevSignal s1
  else s1

/-- The number a claim by the host returns (R302), none with 16 in service. A number latched by the last evaluation stands
until the next one, though its event was masked or deasserted since (R298). -/
def hevTake (s : State) : Nat :=
  if 16 ≤ hevCount s then 0
  else if hevCur s < s.hev.latch.toNat then max s.hev.latch.toNat (hevNext s) else hevNext s

/-- HOST_EVENT_EVALUATION. -/
def execHostEventEvaluation (s : State) : Host.Outcome State Fault Refusal := act s hevEvaluate

/-- A claim by the host (R302): the number, in service from now on; HOSTWAKE_N is released (R304), and a completion queue
counts its posts from here (R327). -/
def hevClaim (s : State) : Nat × State :=
  let n := hevTake s
  if n = 0 then (0, s)
  else
    let s1 := evPut 2 0x30 n true (evPut 2 0x20 n false s)
    let s2 := doIf (decide (n ≤ 0x40)) (modCq (n - 1) fun q => { q with sinceClaim := 0 }) s1
    let held := s2.hev.wake && s2.hev.heldSig
    let s3 := modHev (fun h => { h with
      latch := 0, wake := false, heldSig := false, retry := if h.wake then 0 else h.retry }) s2
    (n, if held && hevNext s3 ≠ 0 then hevSignal s3 else hevAfter s3)

/-- A read of HEV_CLAIM: a stoker gets 0 and claims nothing (R302). -/
def hevClaimRead (src : Src) (s : State) : Word × State :=
  match src with
  | .stoker _ => (0, s)
  | _ => let r := hevClaim s; (wd r.1, r.2)

/-- HEV_CLAIM_READ. -/
def execHevClaimRead (src : Src) (s : State) : Host.Outcome State Fault Refusal := act s fun t => (hevClaimRead src t).2

/-- A moderation round ends; the new one holds k posts (R327). -/
def cqRoundEnd (n k : Nat) (s : State) : State :=
  cqSample n (modCq n (fun q => { q with
    round := k, sinceClaim := 0, timerExp := false
    timerOn := decide (0 < k) && rg 1 (cqOfs n + 4) s != 0 }) s)

/-- A done of host event n (R302): ignored with DONEBAD when it is not in service; the done of a completion queue's event
ends its round (R327). -/
def hevDone (n : Nat) (s : State) : State :=
  if n = 0 || 255 < n || !hevInSvc n s then setRgBit 2 1 6 true s
  else
    let s1 := evPut 2 0x30 n false s
    let s2 := if n ≤ 0x40 then cqRoundEnd (n - 1) (cq (n - 1) s1).sinceClaim s1 else s1
    hevAfter s2

/-- HEV_DONE_WRITE. -/
def execHevDoneWrite (_src : Src) (val : Word) (s : State) : Host.Outcome State Fault Refusal :=
  act s (hevDone (fld val 7 0))

/-- A write of HEV_SWSET: 0xF0 to 0xFD; other values are reserved. -/
def hevSwset (val : Word) (s : State) : State :=
  let n := fld val 7 0
  if 0xF0 ≤ n && n ≤ 0xFD then hevEdge n s else setRgBit 2 1 7 true s

/-- HEV_SWSET. -/
def execHevSwset (_src : Src) (val : Word) (s : State) : Host.Outcome State Fault Refusal := act s (hevSwset val)

/-- A write of 1s to word w of HEV_PEND clears pending edges; a number latched for one of them that pends no more goes. -/
def hevPendClear (w : Nat) (val : Word) (s : State) : State :=
  let s1 := setRg 2 (0x20 + w) (rg 2 (0x20 + w) s &&& ~~~val) s
  let e := s1.hev.latch.toNat
  doIf (e / 16 == w && bit val (evBit e) && !hevPending e s1) (modHev fun h => { h with latch := 0 }) s1

/-- HEV_PEND_CLEAR. -/
def execHevPendClear (_src : Src) (w : BitVec 4) (val : Word) (s : State) : Host.Outcome State Fault Refusal :=
  act s (hevPendClear w.toNat val)

/-- The controller acknowledges an in-band interrupt (R303): the mandatory byte is the number current now. -/
def ibiAck (s : State) : State :=
  if s.hev.ibi && !s.hev.backoff then
    count 2 0x40 (modHev (fun h => { h with ibi := false, retry := 0, lastByte := some (BitVec.ofNat 8 (hevNext s)) }) s)
  else s

/-- IBI_ACK. -/
def execIbiAck (s : State) : Host.Outcome State Fault Refusal := act s ibiAck

/-- The controller NACKs an in-band interrupt (R304): a retry after its backoff, or HOSTWAKE_N low after the eighth. -/
def ibiNack (s : State) : State :=
  if s.hev.ibi && !s.hev.backoff then
    let s1 := count 2 0x42 s
    if s.hev.retry < 8 then modHev (fun h => { h with backoff := true }) s1
    else raise 2 0 0 (count 2 0x44 (modHev (fun h => { h with ibi := false, retry := 0, wake := true }) s1))
  else s

/-- IBI_NACK. -/
def execIbiNack (s : State) : Host.Outcome State Fault Refusal := act s ibiNack

/-- The backoff of a NACKed interrupt is over (R304): it is requested again while an enabled event pends above HEV_CUR. -/
def ibiRetry (s : State) : State :=
  if !s.hev.backoff then s
  else if hevNext s = 0 then modHev (fun h => { h with backoff := false, ibi := false, retry := 0 }) s
  else modHev (fun h => { h with backoff := false, retry := h.retry + 1 }) s

/-- IBI_RETRY_EXPIRY. -/
def execIbiRetryExpiry (s : State) : Host.Outcome State Fault Refusal := act s ibiRetry

/-- HEV_STAT as read: WAKE, RETRY and its sticky bits. -/
def hevStat (s : State) : Word :=
  wd (b2n s.hev.wake * 32768 + s.hev.retry * 2048) ||| (rg 2 1 s &&& 0xC0)

end Sys2Proof.Machine
end

