-- ==== Sys2Proof/Machine/Queues.lean ====
section
/-! DEFINITION. Work queues (R316 to R323) and the commands on completion queues (R324 to R328). -/
namespace Sys2Proof.Machine
open Sys2Proof

/-- Register offset of work queue n. -/
def wqOfs (n : Nat) : Nat := 0x100 + 16 * n
/-- Register i of work queue n. -/
def wqReg (n i : Nat) (s : State) : Word := rg 1 (wqOfs n + i) s
/-- WQ_CTL.EN. -/
def wqEn (n : Nat) (s : State) : Bool := bit (wqReg n 0 s) 15
/-- Entries of the ring. -/
def wqSize (n : Nat) (s : State) : Nat := 2 ^ fld (wqReg n 0 s) 12 8
/-- WQ_CI. -/
def wqCi (n : Nat) (s : State) : Nat := (wqReg n 7 s).toNat
/-- Word address of entry i. -/
def wqAddr (n i : Nat) (s : State) : Nat := rgs 1 (wqOfs n + 1) 2 s + 16 * i
/-- The answer queue: that of the entry being applied, else WQ_CTL.ACQ. -/
def wqAcq (n : Nat) (s : State) : Nat :=
  match (wq n s).begun with
  | some b => b.acq
  | none => fld (wqReg n 0 s) 5 0

/-- A word address is that of w0 of an entry of an enabled work queue (R315). -/
def wqFirstWord (a : Nat) (s : State) : Bool :=
  (span 0 64).any fun n =>
    let b := rgs 1 (wqOfs n + 1) 2 s
    wqEn n s && decide (b ≤ a) && decide (a < b + 16 * wqSize n s) && (a - b) % 16 == 0

/-- HIF_STAT.CONFW. -/
def confW (s : State) : State := setRgBit 1 1 6 true s
/-- HIF_STAT.BADW. -/
def hifBadw (s : State) : State := setRgBit 1 1 7 true s

/-- The number of the memory region an address lies in: a firebox SRAM, a hearth SRAM, or the GDDR6 direct window (R316). -/
def ringRegion (a : Nat) : Option Nat :=
  if 0x10000000 ≤ a && a < 0x11000000 then some ((a - 0x10000000) / 0x200000)
  else if 0x11000000 ≤ a && a < 0x12000000 then some (64 + (a - 0x11000000) / 0x40000)
  else if 0x80000000 ≤ a && a < 2 ^ 32 then some 256
  else none

/-- An address names memory for the host interface. -/
def hostMem (a : Nat) (s : State) : Bool := match place none none a s with | .mem _ => true | _ => false

/-- A ring of so many entries may lie at a base (R316). -/
def ringOk (base entries : Nat) (s : State) : Bool :=
  let top := base + 16 * entries - 1
  base % (16 * entries) == 0 && (ringRegion base).isSome && ringRegion base == ringRegion top &&
    hostMem base s && hostMem top s

/-- Write w0 of every entry of a ring (R316, R324). -/
def ringInit (base : Nat) (w : Word) : Nat → State → State
  | 0, s => s
  | k + 1, s => ringInit (base + 16) w k (pokeWords base [w] s)

/-- LOG2 and ACQ of a written control word, or what stays of them: a reserved LOG2 is not taken, and an enabled queue takes
neither (R15, R316). `lowMask` is the mask of the other writable fields below LOG2. -/
def ringCtl (old val lowMask : Word) (s : State) : Word × State :=
  let badLog := fld val 12 8 < 4 || 16 < fld val 12 8
  if bit old 15 then
    let diff := (fld val 12 8 ≠ fld old 12 8) || ((val &&& lowMask) != (old &&& lowMask))
    (old, doIf diff confW s)
  else
    let log := if badLog then fld old 12 8 else fld val 12 8
    (setFld ((old &&& ~~~lowMask) ||| (val &&& lowMask)) 12 8 log, doIf badLog hifBadw s)

/-- A write of WQ_CTL (R316). -/
def wqCtlWrite (n : Nat) (val : Word) (s : State) : State :=
  let old := wqReg n 0 s
  let r := ringCtl old val 0x3F s
  let s1 := setRg 1 (wqOfs n) r.1 r.2
  if bit val 15 && !bit old 15 then
    if ringOk (rgs 1 (wqOfs n + 1) 2 s1) (wqSize n s1) s1 then
      modWq n (fun q => { q with initing := true }) (setRgBit 1 (wqOfs n) 15 true s1)
    else setRgBit 1 (wqOfs n + 6) 12 true s1
  else if !bit val 15 && bit old 15 then
    setRgBit 1 (wqOfs n) 15 false (modWq n (fun q => { q with
      ready := false, initing := false, polling := false
      cache := if q.begun.isSome then q.cache.take 1 else [] }) s1)
  else s1

/-- WQ_ENABLE. -/
def execWqEnable (src : Src) (n : QueueNo) (val : Word) (s : State) : Host.Outcome State Fault Refusal :=
  actWrite src (ra 1 (wqOfs n.toNat)) val s (wqCtlWrite n.toNat val)
/-- WQ_DISABLE. -/
def execWqDisable (src : Src) (n : QueueNo) (val : Word) (s : State) : Host.Outcome State Fault Refusal :=
  actWrite src (ra 1 (wqOfs n.toNat)) val s (wqCtlWrite n.toNat val)

/-- The ring of a newly enabled queue has been written (R316): READY, with CI 0. An entry that was being applied when the queue
was disabled is finished first, and a ring in GDDR6 waits for its first training (R238). -/
def wqInitDone (n : Nat) (s : State) : State :=
  if !(wq n s).initing || (wq n s).begun.isSome || gdWaits (rgs 1 (wqOfs n + 1) 2 s) s then s
  else
    let s1 := ringInit (rgs 1 (wqOfs n + 1) 2 s) 0 (wqSize n s) s
    setRg 1 (wqOfs n + 7) 0 (modWq n (fun q => { q with initing := false, ready := true, cache := [] }) s1)

/-- WQ_INIT_COMPLETE. -/
def execWqInitComplete (n : QueueNo) (s : State) : Host.Outcome State Fault Refusal := act s (wqInitDone n.toNat)

/-- Cache entries from index i while they are the device's, until 8 are held (R319). An entry that cannot be read ends the
poll. -/
def pollFrom (n i : Nat) : Nat → State → State
  | 0, s => s
  | k + 1, s =>
    if 8 ≤ (wq n s).cache.length then s
    else
      match placeRun none none (wqAddr n i s) 16 s with
      | none => s
      | some ks =>
        let w0 := memReadKeys (ks.take 1) s
        if w0.2.1 || !bit (nth w0.1 0) 15 then w0.2.2
        else
          let r := memReadKeys (ks.drop 1) w0.2.2
          if r.2.1 then r.2.2
          else pollFrom n ((i + 1) % wqSize n s) k
            (modWq n (fun q => { q with cache := q.cache ++ [(i, w0.1 ++ r.1)] }) r.2.2)

/-- A poll of work queue n (R319): with WQ_POLL 0, only after a WQ_POKE. One whose read has no answer caches nothing (R393). -/
def wqPoll (n : Nat) (s : State) : State :=
  let q := wq n s
  let iv := fld (wqReg n 3 s) 7 0 * 65536 + (wqReg n 4 s).toNat
  let r : BusReq := .wq (BitVec.ofNat 6 n)
  if !q.ready || (iv = 0 && !q.polling) then s
  else if s.mute.contains r then unheard r id s
  else
    let start := match q.cache.getLast? with | some e => (e.1 + 1) % wqSize n s | none => wqCi n s
    pollFrom n start (min 8 (wqSize n s - q.cache.length)) (modWq n (fun x => { x with polling := false }) s)

/-- WQ_POLL. -/
def execWqPoll (n : QueueNo) (s : State) : Host.Outcome State Fault Refusal := act s (wqPoll n.toNat)

/-- A write of WQ_POKE: 0x0001 starts a poll of a ready queue; other values are reserved. -/
def wqPoke (n : Nat) (val : Word) (s : State) : State :=
  if val ≠ 1 then hifBadw s
  else modWq n (fun q => { q with polling := q.ready }) s

/-- WQ_POKE. -/
def execWqPoke (_src : Src) (n : QueueNo) (val : Word) (s : State) : Host.Outcome State Fault Refusal :=
  act s (wqPoke n.toNat val)

/-- A write of WQ_INVAL (R320): cached entries from index i onward go; the entry being applied stays and sets INVLATE. -/
def wqInval (n : Nat) (val : Word) (s : State) : State :=
  let q := wq n s
  if wqSize n s ≤ val.toNat then hifBadw s
  else
    let before := q.cache.takeWhile fun e => e.1 != val.toNat
    if before.length = q.cache.length then s
    else if before.isEmpty && q.begun.isSome then
      setRgBit 1 (wqOfs n + 6) 14 true (modWq n (fun x => { x with cache := x.cache.take 1 }) s)
    else modWq n (fun x => { x with cache := before }) s

/-- WQ_INVAL. -/
def execWqInval (_src : Src) (n : QueueNo) (val : Word) (s : State) : Host.Outcome State Fault Refusal :=
  act s (wqInval n.toNat val)

/-- A post of the work queue may be written now: the answer queue has room and nothing waits before it (R325). -/
def wqMayPost (n : Nat) (s : State) : Bool :=
  let a := wqAcq n s
  cqRoom a s && ((cq a s).waiting.isEmpty || (cq a s).waiting.head? == some (.wq n))

/-- The entry is done (R322): w0 with OWN = 0, WQ_CI advances, WQ_DONE_CNT. -/
def wqFinish (n : Nat) (s : State) : State :=
  match (wq n s).cache with
  | [] => s
  | (i, ws) :: rest =>
    let at_ := match (wq n s).begun with | some b => b.addr | none => wqAddr n i s
    let s1 := pokeWords at_ [nth ws 0 &&& 0x7FFF] s
    count 1 (wqOfs n + 10) (setRg 1 (wqOfs n + 7) (wd ((i + 1) % wqSize n s))
      (modWq n (fun q => { q with cache := rest, stall := false, begun := none, answer := none, remote := false }) s1))

/-- Post the answer and finish the entry; with no room, the answer waits in its queue's order (R325). -/
def wqAnswer (n : Nat) (st : Status) (s : State) : State :=
  let a := wqAcq n s
  if wqMayPost n s then
    let s1 := modCq a (fun q => { q with waiting := q.waiting.filter fun w => w != .wq n }) s
    wqFinish n (addDue (.post a) (cqWrite a st s1))
  else if (cq a s).waiting.contains (.wq n) then modWq n (fun q => { q with answer := some st }) s
  else count 1 (cqOfs a + 12) (modWq n (fun q => { q with answer := some st })
    (modCq a (fun q => { q with waiting := q.waiting ++ [.wq n] }) s))

/-- The fields of a work entry are in order (R317, R322). -/
def wqFieldsOk (ws : List Word) : Bool :=
  let w0 := nth ws 0
  let typ := fld w0 14 12
  let op := fld w0 11 8
  (typ == 1 || typ == 2) && fld w0 7 0 == 0 && fld (nth ws 2) 15 9 == 0 && (ws.drop 7).all (fun w => w == 0) &&
    (if typ = 1 then decide (1 ≤ op) && decide (op ≤ 8) else op == 0)

/-- An answer to a work entry before its results are filled in (R323). -/
def wqStatus (ws : List Word) (s : State) : Status :=
  { kind := 1, hseq := nth ws 1, subch := BitVec.ofNat 32 (valOf [nth ws 2, nth ws 3]), dtb := s.ft.dtb }

/-- Step 2 and 3 of R322 for an entry with the expected HSEQ. -/
def wqPerform (n : Nat) (ws : List Word) (s : State) : State :=
  let st := wqStatus ws s
  let op := fld (nth ws 0) 11 8
  let subch := valOf [nth ws 2, nth ws 3]
  let addr := valOf [nth ws 4, nth ws 5]
  if !wqFieldsOk ws then wqAnswer n { st with opres := 8 } s
  else if fld (nth ws 0) 14 12 = 2 then wqAnswer n st s
  else if subch / 8192 = devNum s then
    let sub := subch % 8192
    let r := operate op sub addr (nth ws 6) (nth ws 1) s
    if (op = 1 || op = 4) && r.1 = 0 then wqFinish n r.2
    else wqAnswer n { st with
      opres := BitVec.ofNat 4 r.1, lastCcw := (sch sub r.2).ccw, aux := if op = 6 then schState sub r.2 else 0 } r.2
  else
    flOperate (subch / 8192) op (subch % 8192) addr (nth ws 6) (.wq n)
      (modWq n (fun q => { q with remote := true, answer := some st }) s)

/-- A remote operation has been answered, or has failed: the entry's answer posts, or an accepted START or RESUME ends
without one (R323). -/
def wqRemoteDone (n : Nat) (ws : List Word) (st : Status) (s : State) : State :=
  let op := fld (nth ws 0) 11 8
  if (op = 1 || op = 4) && st.opres = 0 && st.dstat = 0 then wqFinish n s else wqAnswer n st s

/-- An entry goes to another device (R322, R284). -/
def wqAway (ws : List Word) (s : State) : Bool :=
  wqFieldsOk ws && fld (nth ws 0) 14 12 == 1 && valOf [nth ws 2, nth ws 3] / 8192 != devNum s

/-- WQ_HSEQ after an entry begun with expectation b: its next value, unless it was written since (R321). -/
def wqSeq (n : Nat) (b : WqEntry) (e : Word) (s : State) : State :=
  if wqReg n 5 s = b.expect then setRg 1 (wqOfs n + 5) e s else s

/-- The entry being applied goes one step further (R321, R322). -/
def wqGo (n : Nat) (ws : List Word) (b : WqEntry) (s : State) : State :=
  let q := wq n s
  if q.remote then s
  else match q.answer with
    | some st => wqRemoteDone n ws st s
    | none =>
      if !wqMayPost n s then
        (if q.stall then s else count 1 (wqOfs n + 14) (modWq n (fun x => { x with stall := true }) s))
      else if wqAway ws s && !tagsFree 1 s then s
      else
        let s1 := modWq n (fun x => { x with stall := false }) s
        if nth ws 1 = b.expect then wqPerform n ws (wqSeq n b (seqNext b.expect) s1)
        else
          let s2 := raise 1 1 (wd n) (count 1 (wqOfs n + 12) (wqSeq n b (seqNext (nth ws 1)) s1))
          wqAnswer n { wqStatus ws s2 with cstat := 1, aux := b.expect } s2

/-- Work queue n may begin an entry. -/
def wqMayBegin (n : Nat) (s : State) : Bool := (wq n s).begun.isNone && !(wq n s).cache.isEmpty

/-- It is the turn of work queue n: the first after the one served last that may begin an entry (R322). -/
def wqTurn (n : Nat) (s : State) : Bool :=
  ((span 0 64).map fun i => (s.wqLast + 1 + i) % 64).find? (fun m => wqMayBegin m s) == some n

/-- The first cached entry of work queue n is applied, one step further; it is begun when the queue's turn has come (R321,
R322). -/
def wqApply (n : Nat) (s : State) : State :=
  let q := wq n s
  match q.cache, q.begun with
  | [], _ => s
  | (_, ws) :: _, some b => wqGo n ws b s
  | (i, ws) :: _, none =>
    if !wqTurn n s then s
    else
      let b : WqEntry := { expect := wqReg n 5 s, addr := wqAddr n i s, acq := wqAcq n s }
      wqGo n ws b { modWq n (fun x => { x with begun := some b }) s with wqLast := n }

/-- WQ_ENTRY_APPLY. -/
def execWqEntryApply (n : QueueNo) (s : State) : Host.Outcome State Fault Refusal := act s (wqApply n.toNat)

/-- WQ_STATE as read. -/
def wqState (n : Nat) (s : State) : Word :=
  let q := wq n s
  wd (b2n q.ready * 32768 + b2n q.stall * 8192 + q.cache.length) ||| (wqReg n 6 s &&& 0x5000)

/-! ### Completion queues -/

/-- The ring of an enabled completion queue is written (R316, R324): every w0 as the device's, CQ_PI 0 and READY. One in GDDR6
waits for the first training (R238). -/
def cqStart (n : Nat) (s : State) : State :=
  if !bit (cqCtl n s) 15 || (cq n s).ready || gdWaits (rgs 1 (cqOfs n + 1) 2 s) s then s
  else
    addDue (.post n) (setRg 1 (cqOfs n + 7) 0
      (modCq n (fun q => { q with ready := true }) (ringInit (rgs 1 (cqOfs n + 1) 2 s) 0x8000 (cqSize n s) s)))

/-- A write of CQ_CTL (R316, R324): enabling a queue whose ring is in order starts it. -/
def cqCtlWrite (n : Nat) (val : Word) (s : State) : State :=
  let old := cqCtl n s
  let r := ringCtl old val 0 s
  let s1 := setRg 1 (cqOfs n) (setBit r.1 14 (bit val 14)) r.2
  if bit val 15 && !bit old 15 then
    if ringOk (rgs 1 (cqOfs n + 1) 2 s1) (cqSize n s1) s1 then
      cqStart n (setRgBit 1 (cqOfs n) 15 true s1)
    else setRgBit 1 (cqOfs n + 6) 12 true s1
  else if !bit val 15 && bit old 15 then
    setRgBit 1 (cqOfs n) 15 false (modCq n (fun q => { q with ready := false }) s1)
  else s1

/-- CQ_ENABLE. -/
def execCqEnable (src : Src) (n : QueueNo) (val : Word) (s : State) : Host.Outcome State Fault Refusal :=
  actWrite src (ra 1 (cqOfs n.toNat)) val s (cqCtlWrite n.toNat val)

/-- The first waiting post of completion queue n is written, if there is room (R325). -/
def cqPost (n : Nat) (s : State) : State :=
  match (cq n s).waiting with
  | .wq w :: _ => wqApply w s
  | _ => addDue (.post n) s

/-- CQ_POST. -/
def execCqPost (n : QueueNo) (s : State) : Host.Outcome State Fault Refusal := act s (cqPost n.toNat)

/-- A write of CQ_ACK: 0x0001 ends the round, the new one empty (R327); other values are reserved. -/
def cqAck (n : Nat) (val : Word) (s : State) : State :=
  if val = 1 then cqRoundEnd n 0 s else hifBadw s

/-- CQ_ACK. -/
def execCqAck (_src : Src) (n : QueueNo) (val : Word) (s : State) : Host.Outcome State Fault Refusal :=
  act s (cqAck n.toNat val)

/-- The round's timer runs out (R327). -/
def cqTimeout (n : Nat) (s : State) : State :=
  if (cq n s).timerOn then cqSample n (modCq n (fun q => { q with timerOn := false, timerExp := true }) s) else s

/-- CQ_MODERATION_TIMEOUT. -/
def execCqModerationTimeout (n : QueueNo) (s : State) : Host.Outcome State Fault Refusal := act s (cqTimeout n.toNat)

/-- CQ_STATE as read: FULL while the entry at CQ_PI is the host's. -/
def cqState (n : Nat) (s : State) : Word :=
  let own := match peekWord (cqAddr n (cqPi n s) s) s with | some w => bit w 15 | none => false
  wd (b2n (cq n s).ready * 32768 + b2n ((cq n s).ready && !own) * 16384 + b2n (cq n s).asserted * 8192) |||
    (rg 1 (cqOfs n + 6) s &&& 0x1000)

end Sys2Proof.Machine
end

