-- ==== Sys2Proof/Machine/Owner.lean ====
section
/-! DEFINITION. The FIFO a draught channel uses, and the changes of ownership of grates and lanes that a tick applies or
discards (R185, R256). -/
namespace Sys2Proof.Machine
open Sys2Proof

/-- Some channel is bound to one of n FIFOs from k on. -/
def fifosBound (k n : Nat) (s : State) : Bool :=
  s.chans.any fun kc => match chFifo kc.2 with | some f => decide (k ≤ f) && decide (f < k + n) | none => false

/-- A requested owner of grate g is applied, or discarded with OWN_ERR (R185). -/
def grateOwnTick (g : Nat) (s : State) : State :=
  match (grate g s).ownReq with
  | none => s
  | some f =>
    let s1 := modGrate g (fun x => { x with ownReq := none }) s
    if (grate g s).run || fifosBound (8 * g) 8 s then setRgBit (bGrt g) 1 6 true s1
    else modGrate g (fun x => { x with ownXor := BitVec.ofNat 6 g ^^^ f }) s1

/-- A requested owner of lane l is applied, or discarded with OWN_ERR (R256). -/
def laneOwnTick (l : Nat) (s : State) : State :=
  match (lane l s).ownReq with
  | none => s
  | some w =>
    let s1 := modLane l (fun x => { x with ownReq := none }) s
    if fifosBound (lnFifo l 0) 4 s then setLnBit l 2 5 true s1
    else modLane l (fun x => { x with own := if bit w 6 then none else some (BitVec.ofNat 6 (fld w 5 0)) }) s1

/-- The ownership changes of a tick. -/
def ownTick (s : State) : State :=
  forAll (s.lanes.map fun kl => kl.1) laneOwnTick (forAll (s.grates.map fun kg => kg.1) grateOwnTick s)

end Sys2Proof.Machine
end

