-- ==== Sys2Proof/Machine/Frame.lean ====
section
/-! DEFINITION. The device time base, the frame timer, SYNC_IN and the schedule tables (R21 to R44). -/
namespace Sys2Proof.Machine
open Sys2Proof

/-- Change the frame timer. -/
def modFt (f : FrameT → FrameT) (s : State) : State := { s with ft := f s.ft }

/-- FRM_STAT.BADW. -/
def frmBadw (s : State) : State := setRgBit 0 1 7 true s

/-! ### The DTB (R21 to R24) -/

/-- A write to DTB_CMD (R24). -/
def dtbCmd (val : Word) (s : State) : State :=
  if val ≠ 1 then frmBadw s
  else if s.ft.running || s.ft.waiting then setRgBit 0 1 6 true s
  else modFt (fun f => { f with dtb := rgs 0 0x14 4 s }) s

/-- DTB_LOAD. -/
def execDtbLoad (src : Src) (val : Word) (s : State) : Host.Outcome State Fault Refusal :=
  actWrite src (ra 0 0x18) val s (dtbCmd val)

/-- A read of DTB_W0 alone samples the DTB into the source's holding set (R23); a speculative path's sample is its own until it
is confirmed (R85). -/
def dtbSample (src : Src) (s : State) : State :=
  let v := BitVec.ofNat 64 s.ft.dtb
  let all := { s with dtbHold := mset 0 (srcNo src) v s.dtbHold }
  match src with
  | .stoker sub =>
    let hold (h : Option W64) (t : State) : State :=
      modStk (stkOf sub.toNat) (fun x => { x with spec := x.spec.map fun p => { p with hold := h } }) t
    if onPath sub.toNat s then hold (some v) s
    else if (stk (stkOf sub.toNat) s).spec.isSome then hold none all else all
  | _ => all

/-- The DTB that a source's holding set has (R23): on a speculative path, what the path sampled. -/
def dtbHeld (src : Src) (s : State) : W64 :=
  let all := mget 0 (srcNo src) s.dtbHold
  match src with
  | .stoker sub => ((specOf sub.toNat s).bind fun p => p.hold).getD all
  | _ => all

/-- DTB_W0_READ. -/
def execDtbW0Read (src : Src) (s : State) : Host.Outcome State Fault Refusal := act s (dtbSample src)

/-! ### Schedule tables (R36, R37) -/

/-- A valid entry of a table: its number, context, start offset and budget in 8 ns units (R36). -/
structure Slot where
  e : Nat
  ctx : Nat
  o : Nat
  b : Nat
deriving DecidableEq, Repr

/-- Offset of entry e of a stoker's table. -/
def slotOfs (tableB : Bool) (e : Nat) : Nat := (if tableB then 0x580 else 0x500) + 4 * e

/-- Entry e of a table of stoker k, if it is valid. -/
def slotOf (k : Nat) (tableB : Bool) (e : Nat) (s : State) : Option Slot :=
  let w (i : Nat) : Word := rg (bStk k) (slotOfs tableB e + i) s
  if bit (w 0) 15 then
    some { e := e, ctx := fld (w 0) 3 0, o := fld (w 1) 15 8 * 65536 + (w 2).toNat, b := fld (w 1) 7 0 * 65536 + (w 3).toNat }
  else none

/-- The valid entries of a table in ascending entry number. -/
def slotsOf (k : Nat) (tableB : Bool) (s : State) : List Slot := (span 0 32).filterMap fun e => slotOf k tableB e s

/-- The first failure of a table's valid entries (R37), 0 for none; `lim` is P − A − M in ns, and `prev` the entry before. -/
def slotsFail (lim : Int) : Option Slot → List Slot → Nat
  | _, [] => 0
  | prev, x :: xs =>
    if x.b = 0 then 3
    else if (match prev with | some p => decide (x.o ≤ p.o) || decide (x.o < p.o + p.b) | none => false) then 1
    else if xs.isEmpty && decide (lim < (8 * (x.o + x.b) : Nat)) then 2
    else slotsFail lim (some x) xs

/-- SYNC_CTL.SYNC_EN. -/
def syncEn (s : State) : Bool := bit (rg 0 5 s) 0

/-- P − A − M in ns for a timing: PERIOD, ash length and SYNC_K (R37). -/
def fitLimit (period ash k : Nat) (s : State) : Int :=
  (8 * period : Nat) - (ash : Nat) - (if syncEn s then (8 * period / 2 ^ k : Nat) else 0)

/-- The first failure of a table under a timing. -/
def tableFail (stk : Nat) (tableB : Bool) (period ash k : Nat) (s : State) : Nat :=
  slotsFail (fitLimit period ash k s) none (slotsOf stk tableB s)

/-- Table B of stoker k is active (SCHED_CTL.ACTIVE). -/
def activeB (k : Nat) (s : State) : Bool := bit (rg (bStk k) 0x400 s) 0
/-- A swap is requested (SCHED_CTL.SWAP). -/
def swapReq (k : Nat) (s : State) : Bool := bit (rg (bStk k) 0x400 s) 8

/-- Stokers with a schedule register that is not as reset: every other one has empty tables and no request. -/
def schedStokers (s : State) : List Nat :=
  ((s.regs.filter fun kv =>
      decide (0x21000000 ≤ kv.1) && decide (kv.1 < 0x23000000) &&
      decide (0x400 ≤ kv.1 % 0x10000) && decide (kv.1 % 0x10000 < 0x600)).map fun kv => (kv.1 - 0x21000000) / 0x10000).eraseDups

/-! ### The tick decision (R40) -/

/-- The failure of the table that stoker k would have active: none for a stoker that runs with no window in force. -/
def nextFail (k period ash kk : Nat) (s : State) : Nat :=
  if (stk k s).noWindow && !swapReq k s then 0
  else tableFail k (activeB k s != swapReq k s) period ash kk s

/-- A requested swap is performed. -/
def doSwap (k : Nat) (s : State) : State :=
  modStk k (fun x => { x with noWindow := false })
    (setRg (bStk k) 0x400 (if activeB k s then 0 else 1) s)

/-- A swap is refused with its cause. -/
def refuseSwap (k cause : Nat) (s : State) : State :=
  setRg (bStk k) 0x401 (setFld (setBit (rg (bStk k) 0x401 s) 3 true) 2 0 cause) s

/-- A timing comes into force (R27, R40). -/
def applyTiming (period ash k : Nat) (s : State) : State :=
  setRg 0 2 (wordOf 2 0 period) (setRg 0 3 (wordOf 2 1 period) (setRg 0 4 (wd ash) (setRgFld 0 5 7 4 k
    (modFt (fun f => { f with period := period, ash := ash, k := k }) s))))

/-- The decision has failed under the new timing: stoker n swaps where its table fits under the timing in force, else it is
refused; at a start it then has no window in force (R40). -/
def refused40 (start : Bool) (n : Nat) (s : State) : State :=
  let c := tableFail n (activeB n s != swapReq n s) s.ft.period s.ft.ash s.ft.k s
  if c = 0 then doIf (swapReq n s) (doSwap n) s
  else doIf start (modStk n fun x => { x with noWindow := true }) (setRgBit (bStk n) 0x400 8 false (refuseSwap n c s))

/-- The steps of the tick decision (R40). `start`: the start decision, which first makes table A count as active and lets a
stoker whose table would become active and fails start without windows. DESIGN CHOICE (log 83): a timing change that only
the limits of R28 refuse leaves FIT_STOKER as it was, since no table fails. -/
def decide40 (start : Bool) (s : State) : State :=
  let f := s.ft
  let stks := schedStokers s
  let s0 := if start then
      forAll stks (fun k t => modStk k (fun x => { x with noWindow := false }) (setRgBit (bStk k) 0x400 0 false t)) s else s
  let pend := f.pendPeriod.isSome || f.pendAsh.isSome || f.pendK.isSome
  let period := f.pendPeriod.getD f.period
  let ash := (f.pendAsh.map fun w => w.toNat).getD f.ash
  let k := (f.pendK.map fun w => w.toNat).getD f.k
  let bad := stks.filter fun n => nextFail n period ash k s0 ≠ 0
  let ashOk := decide (256 ≤ ash) && decide (2 * ash ≤ 8 * period)
  let s1 := if bad.isEmpty && ashOk then
      forAll (stks.filter fun n => swapReq n s0) doSwap (applyTiming period ash k s0)
    else
      let t := if pend then
          raise 0 3 0 (setRgBit 0 1 5 true (match bad with
            | [] => s0
            | n :: ns => setRg 0 8 (wd (ns.foldl min n)) s0)) else s0
      forAll (stks.filter fun n => start || swapReq n s0) (refused40 start) t
  modFt (fun g => { g with pendPeriod := none, pendAsh := none, pendK := none, decided := true }) s1

/-- The decision for the tick of a running frame: in the ash slot only (R42), and none while a stop is pending (R29). -/
def tickDecision (s : State) : State :=
  if s.ft.running && s.ft.inAsh && !s.ft.stopPending && !s.ft.decided then decide40 false s else s

/-- TICK_DECISION. -/
def execTickDecision (s : State) : Host.Outcome State Fault Refusal := act s tickDecision

/-! ### Start and stop (R29) -/

/-- A write of FRM_CTL (R29): with TICKALIGN the first tick is a multiple of the period (R288). -/
def frmCtlWrite (v : Word) (s : State) : State :=
  let s1 := setRg 0 0 (v &&& 3) s
  let run := bit v 0
  let sync := bit v 1
  if s.ft.running then modFt (fun f => { f with stopPending := !run }) s1
  else if s.ft.waiting then
    (if run then s1 else modFt (fun f => { f with waiting := false, started := false, decided := false }) s1)
  else if !run || !booted s then s1
  else
    let s2 := modFt (fun f => { f with
      waiting := true, startSync := sync, started := false, stopPending := false, decided := false }) s1
    if sync then s2
    else
      let align := bit (rg 0x14 0x100 s) 13
      modFt (fun f => { f with
        started := true
        nextTick := if align then (f.dtb + 64 + 8 * f.period - 1) / (8 * f.period) * (8 * f.period) else f.dtb + 64 })
        (decide40 true s2)

/-- FRM_CTL as a RUN and START_SYNC pair spells it. -/
def frmCtlWord (run sync : Bool) : Word := wd (b2n sync * 2 + b2n run)

/-- FRM_CTL_RUN_SET. -/
def execFrmCtlRunSet (src : Src) (startSync : Bool) (s : State) : Host.Outcome State Fault Refusal :=
  actWrite src (ra 0 0) (frmCtlWord true startSync) s (frmCtlWrite (frmCtlWord true startSync))

/-- FRM_CTL_RUN_CLEAR. -/
def execFrmCtlRunClear (src : Src) (startSync : Bool) (s : State) : Host.Outcome State Fault Refusal :=
  actWrite src (ra 0 0) (frmCtlWord false startSync) s (frmCtlWrite (frmCtlWord false startSync))

/-- Over-budget contexts of the frame that ended: OVR_CTX, and the runs that a frame without one ends (R39). -/
def frameOver (s : State) : State :=
  let ks := s.stk.map fun kv => kv.1
  let s1 := forAll ks (fun k t =>
    modStk k (fun x => { x with ovrNow := 0 }) (setRg (bStk k) 0x404 (stk k t).ovrNow t)) s
  forAll ((s.ctx.filter fun kc => kc.2.ovrRun ≠ 0 && !bit (stk (stkOf kc.1) s).ovrNow (ctxOf kc.1)).map fun kc => kc.1)
    (fun n => modCtx n fun c => { c with ovrRun := 0 }) s1

/-- The frame with a stop pending ends with no tick (R29). -/
def frameStop (s : State) : State :=
  if s.ft.running && s.ft.stopPending then
    modFt (fun f => { f with
      running := false, stopPending := false, decided := false, started := false, inAsh := false
      captured := false, earlyE := none, dtb := max f.dtb f.nextTick }) (frameOver s)
  else s

/-- FRAME_STOP_COMPLETE. -/
def execFrameStopComplete (s : State) : Host.Outcome State Fault Refusal := act s frameStop

/-! ### Timing registers (R26 to R28) -/

/-- FRM_PERIOD_HI_WRITE: the high byte is staged for its source. -/
def execFrmPeriodHiWrite (src : Src) (val : Word) (s : State) : Host.Outcome State Fault Refusal :=
  actWrite src (ra 0 2) val s (stageHigh src (ra 0 2) val)

/-- A write of FRM_PERIOD_LO commits the source's period as pending; below 125 it is reserved (R26, R27). -/
def periodLo (src : Src) (val : Word) (s : State) : State :=
  let r := stageTake src (ra 0 2) s.ft.commitHi s
  let p := fld r.1 7 0 * 65536 + val.toNat
  if p < 125 then frmBadw r.2 else modFt (fun f => { f with pendPeriod := some p, commitHi := wd (fld r.1 7 0) }) r.2

/-- FRM_PERIOD_LO_WRITE. -/
def execFrmPeriodLoWrite (src : Src) (val : Word) (s : State) : Host.Outcome State Fault Refusal :=
  actWrite src (ra 0 3) val s (periodLo src val)

/-- A write of ASH_NS (R28). -/
def ashWrite (val : Word) (s : State) : State :=
  let a := val &&& 0xFFF8
  if a.toNat < 256 then frmBadw s else modFt (fun f => { f with pendAsh := some a }) s

/-- ASH_NS_WRITE. -/
def execAshNsWrite (src : Src) (val : Word) (s : State) : Host.Outcome State Fault Refusal :=
  actWrite src (ra 0 4) val s (ashWrite val)

/-- A write of SYNC_CTL: SYNC_K waits for the tick decision, the rest takes effect; SYNC_EN moves SYNC_STATE (R27, R34). -/
def syncCtlWrite (val : Word) (s : State) : State :=
  let k := fld val 7 4
  let s1 := setRg 0 5 ((rg 0 5 s &&& 0xFFF8) ||| (val &&& 7)) s
  let s2 := if 4 ≤ k && k ≤ 10 then modFt (fun f => { f with pendK := some (BitVec.ofNat 4 k) }) s1 else frmBadw s1
  modFt (fun f => { f with
    sync := if !bit val 0 then .off else if f.sync == .off then .free else f.sync }) s2

/-- SYNC_CTL_WRITE. -/
def execSyncCtlWrite (src : Src) (val : Word) (s : State) : Host.Outcome State Fault Refusal :=
  actWrite src (ra 0 5) val s (syncCtlWrite val)

/-! ### SYNC_IN (R32 to R35) -/

/-- An error in fine steps rounded to whole ns, halves toward zero (R33). -/
def roundNs (e : Int) : Int :=
  let n := e.natAbs
  let q := n / 16 + (if 8 < n % 16 then 1 else 0)
  if e < 0 then -(q : Int) else q

/-- The correction of an error under a period and SYNC_K (R33). -/
def pull (e : Int) (period k : Nat) : Int :=
  let m : Int := (8 * period / 2 ^ k : Nat)
  max (-m) (min m (roundNs e))

/-- The device follows another device's time (R286): SYNC_IN corrections are not applied (R288). -/
def follows (s : State) : Bool := bit (rg 0x14 0x100 s) 10 && !bit (rg 0x14 0x100 s) 14

/-- The correction that an error gives this device. -/
def pullOf (e : Int) (period k : Nat) (s : State) : Int := if follows s then 0 else pull e period k

/-- The tick T's capture window holds stamp x in fine steps: P/8 of the frame before and of the frame after (R33). -/
def inWindow (t before after : Nat) (x : Int) : Bool :=
  decide ((16 * t : Nat) - (16 * before : Nat) ≤ x) && decide (x ≤ (16 * t : Nat) + (16 * after : Nat))

/-- The frame in progress has correction c from error e. -/
def correct (e c : Int) (s : State) : State :=
  modFt (fun f => { f with
    syncErr := e, syncCorr := c, corr := c, nextTick := (f.tickDtb + 8 * f.framePeriod + c : Int).toNat }) s

/-- A pulse inside a window of LOCKED or FREE (R34). -/
def syncHit (s : State) : State :=
  let s1 := if s.ft.sync == .locked then count 0 0x30 s else s
  modFt (fun f => { f with captured := true, sync := .locked, missRun := 0 }) s1

/-- A sync-miss of LOCKED (R34): the limit frees the timer. -/
def syncMiss (s : State) : State :=
  let s1 := raise 0 1 0 (count 0 0x32 (modFt (fun f => { f with missRun := f.missRun + 1 }) s))
  if s1.ft.missRun < fld (rg 0 6 s) 7 0 then s1
  else raise 0 2 0 (count 0 0x36 (modFt (fun f => { f with sync := .free }) s1))

/-- A pulse that FREE with ACQ uses: measured from the nearest expected tick, for the frame in progress or the next
(R34). DESIGN CHOICE (log 84): SYNC_ERR shows e before the clamp, and at equal distance the last tick is the nearest. -/
def syncAcquire (x : Int) (s : State) : State :=
  let f := s.ft
  let e0 := x - (16 * f.tickDtb : Nat)
  let e1 := x - (16 * f.nextTick : Nat)
  let e := if e0.natAbs ≤ e1.natAbs then e0 else e1
  let c := pullOf e f.framePeriod f.k s
  if f.inAsh then modFt (fun g => { g with syncErr := e, syncCorr := c, earlyE := some e }) s else correct e c s

/-- A filtered SYNC_IN pulse with its stamp in fine steps (R29, R32 to R35). -/
def syncPulse (stamp : Nat) (s : State) : State :=
  let f := s.ft
  let x : Int := stamp
  if f.waiting && f.startSync && !f.started then
    let s1 := decide40 true s
    modFt (fun g => { g with started := true, nextTick := (stamp + 15) / 16 + 8 * g.period }) s1
  else if !f.running || f.sync == .off then s
  else
    let last := inWindow f.tickDtb f.prevPeriod f.framePeriod x
    let next := inWindow f.nextTick f.framePeriod f.period x
    if last || next then
      if f.captured then count 0 0x34 s
      else if last then
        let e := x - (16 * f.tickDtb : Nat)
        correct e (pullOf e f.framePeriod f.k s) (syncHit s)
      else
        let e := x - (16 * f.nextTick : Nat)
        modFt (fun g => { g with earlyE := some e, syncErr := e, syncCorr := pullOf e f.period f.k s }) (syncHit s)
    else if f.sync == .locked then syncMiss s
    else
      let s1 := count 0 0x32 s
      if bit (rg 0 5 s) 2 then syncAcquire x s1 else s1

/-- A pulse at SYNC_IN, of a width in fine steps and with its leading edge rising or falling: active when the edge is the
one POL names, ignored when it is shorter than 16 ns (R32). -/
def syncIn (rising : Bool) (width : Nat) (stamp : Nat) (s : State) : State :=
  if rising == bit (rg 0 5 s) 1 || width < 256 then s else syncPulse stamp s

/-- SYNC_IN_PULSE. -/
def execSyncInPulse (p : SyncPulse) (s : State) : Host.Outcome State Fault Refusal :=
  act s (syncIn p.rising p.width.toNat p.stamp.toNat)

/-- The capture window of the last tick closes (R34). -/
def syncClose (s : State) : State :=
  if !s.ft.running then s
  else if s.ft.captured then modFt (fun f => { f with captured := false }) s
  else if s.ft.sync == .locked then syncMiss s
  else s

/-- SYNC_WINDOW_CLOSE. -/
def execSyncWindowClose (s : State) : Host.Outcome State Fault Refusal := act s syncClose

/-- The level at the SYNC_OUT ball: low until enabled; POL = 0 makes the pulse active-high (R31). -/
def syncOutBall (s : State) : Bool :=
  if s.ft.syncOut || bit (rg 0 7 s) 0 then s.ft.syncOut != bit (rg 0 7 s) 1 else false

/-- SYNC_OUT_PULSE_END. -/
def execSyncOutPulseEnd (s : State) : Host.Outcome State Fault Refusal :=
  act s (modFt fun f => { f with syncOut := false })

/-! ### The tick (R30) -/

/-- Every counter's value goes to the copy that readers do not see (R44). -/
def snapshot (s : State) : State :=
  let c := s.regs.filter fun kv => isCounter kv.1
  if s.shadowSel then { s with shadowA := c } else { s with shadowB := c }

/-- What a tick does to one subchannel: the runaway count, the timeout ticks, TICK-WAIT, and a speculative path whose X is
timed (R54, R57, R78, R106). DESIGN CHOICE (log 90): after this squash the bellows may enter again for the same return. -/
def tickSub (sub : Nat) (s : State) : State :=
  let s1 := modSch sub (fun x => { x with
    runaway := 0
    tmoTicks := if (x.st == .active || x.st == .halted) && !x.words.isEmpty then x.tmoTicks + 1 else x.tmoTicks }) s
  let s2 := match specOf sub s1 with
    | some p => if wFlag p.x.words 7 then squash sub s1 else s1
    | none => s1
  if (sch sub s2).phase == .tickWait then endInternal sub 0 s2 else s2

/-- What a tick does to one context: a WAIT with TK wakes (R129). -/
def tickCtx (sub : Nat) (s : State) : State :=
  let c := ctx sub s
  if c.run == .wait && c.waitTk then
    setRun sub .ready (modCtx sub (fun x => { x with waitc := 2, waitTk := false, waitEv := false }) s)
  else s

/-- The frame timer's own part of a tick (R30, R33). -/
def tickTimer (s : State) : State :=
  modFt (fun f =>
    let t := max f.dtb f.nextTick
    let c := match f.earlyE with
      | some e => pullOf e f.period f.k s
      | none => 0
    { f with
      dtb := t, tickDtb := t, frmNum := f.frmNum + 1, running := true, waiting := false, started := false, decided := false
      inAsh := false, prevPeriod := f.framePeriod, framePeriod := f.period, corr := c, earlyE := none
      syncCorr := if f.earlyE.isSome then c else f.syncCorr
      nextTick := (t + 8 * f.period + c : Int).toNat, syncOut := bit (rg 0 7 s) 0 || f.syncOut, snapDue := true
      framesSinceTrain := f.framesSinceTrain + 1 }) s

/-- A sequencer in WTICK goes on (R206). -/
def tickSeqs (s : State) : State :=
  forAll ((s.grates.filter fun kg => kg.2.hold == some .wtick).map fun kg => kg.1) endHold s

/-- A tick (R30): the counters are taken, the timer moves, and every unit that counts frames or waits for a tick learns. -/
def tick (s : State) : State :=
  if !((s.ft.waiting && s.ft.started) || (s.ft.running && !s.ft.stopPending)) then s
  else
    let s1 := tickTimer (doIf s.ft.running frameOver (snapshot s))
    let s2 := forAll (s1.sch.map fun kx => kx.1) tickSub s1
    let s3 := forAll (s2.ctx.map fun kc => kc.1) tickCtx s2
    let s4 := forAll (span 0 8) (fun h => evEdge h 0x3C9) s3
    let s5 := tickSeqs <| ownTick (forAll (span 0 64) (fun g => modGrate g fun x => { x with calAge := x.calAge + 1 }) s4)
    forAll (s5.flts.map fun kf => kf.1) (fun n => modFlt n fun x => { x with logged := false }) s5

/-- TICK. -/
def execTick (s : State) : Host.Outcome State Fault Refusal := act s tick

/-- The shadows switch and SNAP_FRAME follows (R44). -/
def shadowSwitch (s : State) : State :=
  if s.ft.snapDue then
    { modFt (fun f => { f with snapDue := false, snapFrame := f.frmNum.setWidth 16 }) s with shadowSel := !s.shadowSel }
  else s

/-- SHADOW_SWITCH. -/
def execShadowSwitch (s : State) : Host.Outcome State Fault Refusal := act s shadowSwitch

/-- The shadow of the counter register at word address a, as readers see it (R43, R44). -/
def shadowOf (a : Nat) (s : State) : Word := mget 0 a (if s.shadowSel then s.shadowB else s.shadowA)

/-! ### Windows (R38, R39) -/

/-- A window boundary frees the stoker: the running context yields it and the choice falls again (R111). -/
def boundary (k : Nat) (s : State) : State :=
  addDue (.resched k) (match (stk k s).cur with | some c => displace k c s | none => s)

/-- The window of entry e of the active table opens. -/
def windowStart (k e : Nat) (s : State) : State :=
  if !s.ft.running || s.ft.inAsh || (stk k s).noWindow then s
  else match slotOf k (activeB k s) e s with
    | some x => boundary k (modStk k (fun y => { y with window := some x.ctx }) s)
    | none => s

/-- SCHEDULE_WINDOW_START. -/
def execScheduleWindowStart (stk : StokerNo) (entry : BitVec 5) (s : State) : Host.Outcome State Fault Refusal :=
  act s (windowStart stk.toNat entry.toNat)

/-- A context is over budget at its window's end (R39): counted; in the third frame in a row STK_OVERRUN, and BUDGET where
OVR_ACT says so. -/
def overBudget (k c : Nat) (s : State) : State :=
  let sub := 16 * k + c
  let first := !bit (stk k s).ovrNow c
  let s1 := count (bStk k) 0x406 (modStk k (fun x => { x with ovrNow := setBit x.ovrNow c true }) s)
  if !first then s1
  else if (ctx sub s).ovrRun + 1 < 3 then modCtx sub (fun x => { x with ovrRun := x.ovrRun + 1 }) s1
  else
    let s2 := raise (bStk k) 0 0 (modCtx sub (fun x => { x with ovrRun := 0 }) s1)
    if bit (rg (bStk k) 0x403 s) 0 then addDue (.abort sub 0x02 0 0 (sch sub s).lastAux) s2 else s2

/-- The open window of stoker k ends: its owner c is preempted. In safe state nothing counts (R343). -/
def closeWindow (k c : Nat) (s : State) : State :=
  let r := (ctx (16 * k + c) s).run
  let s1 := boundary k (modStk k (fun y => { y with window := none }) s)
  if !s.safe.on && (r == .ready || r == .running || r == .stalled || r == .longstall) then overBudget k c s1 else s1

/-- The window of entry e ends. -/
def windowEnd (k e : Nat) (s : State) : State :=
  match slotOf k (activeB k s) e s with
  | some x => if (stk k s).window ≠ some x.ctx then s else closeWindow k x.ctx s
  | none => s

/-- Every open window ends: none is open in the ash slot (R42). -/
def closeWindows (s : State) : State :=
  forAll ((s.stk.filter fun kx => kx.2.window.isSome).map fun kx => kx.1) (fun k t =>
    match (stk k t).window with
    | some c => closeWindow k c t
    | none => t) s

/-- SCHEDULE_WINDOW_END. -/
def execScheduleWindowEnd (stk : StokerNo) (entry : BitVec 5) (s : State) : Host.Outcome State Fault Refusal :=
  act s (windowEnd stk.toNat entry.toNat)

/-- SCHED_SWAP_REQUEST. -/
def execSchedSwapRequest (src : Src) (stk : StokerNo) (s : State) : Host.Outcome State Fault Refusal :=
  actWrite src (ra (bStk stk.toNat) 0x400) 0x100 s (setRgBit (bStk stk.toNat) 0x400 8 true)

/-- The active table of stoker k may not be written: from the start decision until frames stop (R41). -/
def tableLocked (k : Nat) (tableB : Bool) (s : State) : Bool :=
  (s.ft.running || (s.ft.waiting && s.ft.started)) && activeB k s == tableB

/-- A write of word w of entry e of a table (R36, R41). -/
def slotTableWrite (k : Nat) (tableB : Bool) (e w : Nat) (val : Word) (s : State) : State :=
  if tableLocked k tableB s then setRgBit (bStk k) 0x401 6 true s
  else setRg (bStk k) (slotOfs tableB e + w) (if w = 0 then val &&& 0x800F else val) s

/-- SLOT_WRITE. -/
def execSlotWrite (src : Src) (stk : StokerNo) (tableB : Bool) (entry : BitVec 5) (w : BitVec 2) (val : Word) (s : State) :
    Host.Outcome State Fault Refusal :=
  actWrite src (ra (bStk stk.toNat) (slotOfs tableB entry.toNat + w.toNat)) val s
    (slotTableWrite stk.toNat tableB entry.toNat w.toNat val)

/-- FRM_STAT as read. -/
def frmStat (s : State) : Word :=
  let f := s.ft
  let st := match f.sync with | .off => 0 | .locked => 1 | .free => 2
  wd (b2n f.waiting * 256 + b2n (f.pendPeriod.isSome || f.pendAsh.isSome || f.pendK.isSome) * 16 + st * 4 +
    b2n f.inAsh * 2 + b2n f.running) ||| (rg 0 1 s &&& 0xE0)

end Sys2Proof.Machine
end

