-- ==== Sys2Proof/Machine/FaultRows.lean ====
section
/-! DEFINITION. The commands of device fault control (R329 to R350): occurrences, force bits, timers, acknowledgement, unit
resets and their ends, returns to service, the soot log, and self-tests. -/
namespace Sys2Proof.Machine
open Sys2Proof

/-- FC_STAT.BADW. -/
def fcBadw (s : State) : State := setRgBit 6 1 7 true s

/-- What a detector's finding is besides an occurrence: a quad PLL that has lost lock reads unlocked. -/
def detectorSign (b i : Nat) (s : State) : State :=
  match blkOf b with
  | .quad _ => if i = 12 then setRgBit b 0 15 false s else if i = 13 then setRgBit b 0 14 false s else s
  | _ => s

/-- A detector of source i of a block fires (R330). -/
def faultOccurrence (b i : Nat) (unit : Word) (rf : Bool) (s : State) : State :=
  addDue (.fault b i true false unit rf) (detectorSign b i s)

/-- FAULT_OCCURRENCE. -/
def execFaultOccurrence (blk : BlkNo) (i : BitVec 4) (unit : Word) (retryFailed : Bool) (s : State) :
    Host.Outcome State Fault Refusal :=
  act s (faultOccurrence blk.toNat i.toNat unit retryFailed)

/-- The mask of a block's sources. -/
def srcMask (b : Nat) : Word := (fltSources (blkOf b)).foldl (fun m i => setBit m i true) 0

/-- A write of FLT_FORCE (R335): a rise of a force bit makes one forced occurrence. -/
def faultForce (b : Nat) (val : Word) (s : State) : State :=
  let old := rg b 0x7003 s
  let v := val &&& srcMask b
  forAll ((fltSources (blkOf b)).filter fun i => bit v i && !bit old i)
    (fun i => addDue (.fault b i false true (flt (16 * b + i) s).unit false)) (setRg b 0x7003 v s)

/-- FAULT_FORCE. -/
def execFaultForce (src : Src) (blk : BlkNo) (val : Word) (s : State) : Host.Outcome State Fault Refusal :=
  actWrite src (ra blk.toNat 0x7003) val s (faultForce blk.toNat val)

/-- REACTION_TIMER_EXPIRY. -/
def execReactionTimerExpiry (blk : BlkNo) (i : BitVec 4) (s : State) : Host.Outcome State Fault Refusal :=
  act s (timerRise blk.toNat i.toNat)

/-- A write of FLT_PEND acknowledges reactions (R334). -/
def faultAck (b : Nat) (val : Word) (s : State) : State :=
  forAll ((fltSources (blkOf b)).filter fun i => bit val i && bit (rg b 0x7004 s) i)
    (fun i t => modFlt (16 * b + i) (fun x => { x with timerOn := false, forcedOnly := false, permanent := false, level := 0 })
      (setRgBit b 0x7004 i false t)) s

/-- FAULT_ACKNOWLEDGE. -/
def execFaultAcknowledge (src : Src) (blk : BlkNo) (val : Word) (s : State) : Host.Outcome State Fault Refusal :=
  actWrite src (ra blk.toNat 0x7004) val s (faultAck blk.toNat val)

/-- The class window of a source closes and OCC reads 0 (R337). -/
def windowClose (b i : Nat) (s : State) : State :=
  if (flt (16 * b + i) s).winOpen then
    setRgFld b (fltOfs i 2) 7 0 0 (modFlt (16 * b + i) (fun x => { x with winOpen := false }) s)
  else s

/-- CLASS_WINDOW_CLOSE. -/
def execClassWindowClose (blk : BlkNo) (i : BitVec 4) (s : State) : Host.Outcome State Fault Refusal :=
  act s (windowClose blk.toNat i.toNat)

/-- FAULT_PULSE_END: the running pulse of the FAULT pin ends (R345). -/
def execFaultPulseEnd (s : State) : Host.Outcome State Fault Refusal :=
  act s fun t => { t with fc := { t.fc with pulse := false } }

/-- FAULT is high (R345). -/
def faultPin (s : State) : Bool :=
  s.pwr.resetN && (s.fc.pulse || bit (rg 6 0 s) 0 || s.safe.on || s.pwr.tbLost)

/-- FAULT_MIN_NS0_WRITE: staged (R391). -/
def execFaultMinNs0Write (src : Src) (val : Word) (s : State) : Host.Outcome State Fault Refusal :=
  actWrite src (ra 6 2) val s (stageHigh src (ra 6 2) val)

/-- A write of FAULT_MIN_NS1 commits the pulse length, 100 to 1,000,000 ns (R345, R391). -/
def minNs1 (src : Src) (val : Word) (s : State) : State :=
  let r := stageTake src (ra 6 2) (rg 6 2 s) s
  let n := valOf [r.1, val]
  if 100 ≤ n && n ≤ 1000000 then setRg 6 2 r.1 (setRg 6 3 val r.2) else fcBadw r.2

/-- FAULT_MIN_NS1_WRITE. -/
def execFaultMinNs1Write (src : Src) (val : Word) (s : State) : Host.Outcome State Fault Refusal :=
  actWrite src (ra 6 3) val s (minNs1 src val)

/-! ### Resets of units (R341, R342) -/

/-- Units of a scope: stokers, fireboxes, hearths, stove dies. -/
def scopeSize (scope : Nat) : Nat :=
  if scope = 1 then 512 else if scope = 2 then 64 else if scope = 3 then 8 else if scope = 4 then 4 else 0

/-- Stokers of a unit. -/
def scopeStokers (scope n : Nat) : List Nat :=
  if scope = 1 then [n] else if scope = 2 then span (8 * n) 8 else if scope = 3 then span (64 * n) 64 else span (128 * n) 128

/-- A write of RST_CTL: a reserved scope or unit is refused with BADW. -/
def rstCtl (val : Word) (s : State) : State :=
  let scope := fld val 15 13
  let n := fld val 8 0
  if scopeSize scope ≤ n then fcBadw s else unitReset scope n s

/-- UNIT_RESET_REQUEST. -/
def execUnitResetRequest (src : Src) (val : Word) (s : State) : Host.Outcome State Fault Refusal :=
  actWrite src (ra 6 5) val s (rstCtl val)

/-- Stokers that no reset, hold or retirement keeps any longer run again with their registers at 0 (R136). -/
def stokersOut (ks : List Nat) (s : State) : State :=
  forAll ks (fun k t => if tgtGone k t then t else stokerOut k t) s

/-- A unit's reset time is over: a retired stove die stays in reset. -/
def unitResetEnd (scope n : Nat) (s : State) : State :=
  if !s.fc.inReset.contains (scope, n) || (scope = 4 && dieRet n s) then s
  else
    stokersOut (scopeStokers scope n)
      { s with fc := { s.fc with inReset := s.fc.inReset.filter fun u => u != (scope, n) } }

/-- UNIT_RESET_END. -/
def execUnitResetEnd (scope : BitVec 3) (num : StokerNo) (s : State) : Host.Outcome State Fault Refusal :=
  act s (unitResetEnd scope.toNat num.toNat)

/-- The reset shadow of a unit that has left reset ends. -/
def shadowEnd (scope n : Nat) (s : State) : State :=
  if s.fc.inReset.contains (scope, n) || (scope = 1 && stkHeld n s) then s
  else { s with fc := { s.fc with shadows := s.fc.shadows.filter fun u => u != (scope, n) } }

/-- RESET_SHADOW_END. -/
def execResetShadowEnd (scope : BitVec 3) (num : StokerNo) (s : State) : Host.Outcome State Fault Refusal :=
  act s (shadowEnd scope.toNat num.toNat)

/-- A write of STK_CTL: HOLD puts the stoker into reset, and releases it (R341). -/
def holdWrite (k : Nat) (val : Word) (s : State) : State :=
  let v := bit val 0
  if v = stkHeld k s then s
  else if v then
    let s1 := if stkInReset k s || stkRetired k s then s else stokerIn k s
    setRgBit (bStk k) 0 0 true
      { s1 with fc := { s1.fc with shadows := s1.fc.shadows.filter (fun u => u != (1, k)) ++ [(1, k)] } }
  else stokersOut [k] (setRgBit (bStk k) 0 0 false s)

/-- STK_HOLD_WRITE. -/
def execStkHoldWrite (src : Src) (stk : StokerNo) (val : Word) (s : State) : Host.Outcome State Fault Refusal :=
  actWrite src (ra (bStk stk.toNat) 0) val s (holdWrite stk.toNat val)

/-! ### Returns to service (R340) -/

/-- One retired unit whose bit b at offset o of the retirement maps is written 1. -/
def returnOne (o b : Nat) (s : State) : State :=
  let s1 := setRgBit 6 (0x100 + o) b false s
  if o = 0 then unitReset 4 b { s1 with fc := { s1.fc with inReset := s1.fc.inReset.filter fun u => u != (4, b) } }
  else if 0x10 ≤ o && o < 0x30 then stokersOut [16 * (o - 0x10) + (15 - b)] s1
  else s1

/-- A write of a retirement map: each 1 over a set bit returns its unit. -/
def retWrite (o : Nat) (val : Word) (s : State) : State :=
  forAll ((span 0 16).filter fun b => bit val b && bit (rg 6 (0x100 + o) s) b) (returnOne o) s

/-- RETIREMENT_RETURN. -/
def execRetirementReturn (src : Src) (ofs : BitVec 7) (val : Word) (s : State) : Host.Outcome State Fault Refusal :=
  actWrite src (ra 6 (0x100 + ofs.toNat)) val s (retWrite ofs.toNat val)

/-! ### The soot log (R346 to R348, R365) -/

/-- Ember MRAM word k: the region 0xB000 to 0xFFFF reads 0, the public key and the signing state are the
device's own. -/
def mramGet (k : Nat) (s : State) : Word :=
  if 0xB000 ≤ k && k < 0x10000 then 0
  else if 0x8080 ≤ k && k < 0x80A2 then Config.idpk (k - 0x8080)
  else if 0x9000 ≤ k && k < 0xB000 then Config.signState (s.sec.next / 1024) k
  else mget (Config.mram k) k s.mram

/-- Write an MRAM word. -/
def mramPut (k : Nat) (v : Word) (s : State) : State := { s with mram := mset (Config.mram k) k v s.mram }

/-- Write consecutive MRAM words. -/
def mramPuts (k : Nat) : List Word → State → State
  | [], s => s
  | w :: ws, s => mramPuts (k + 1) ws (mramPut k w s)

/-- The oldest record of the queue is written to the soot log with the next sequence number (R346, R347). -/
def sootWrite (s : State) : State :=
  match s.fc.soot with
  | [] => s
  | r :: rest =>
    if !s.pwr.emberOk then s
    else
      let e := (s.fc.seq.toNat - 1) % 4096
      mramPuts (8 * e) ([r.w0, r.w1] ++ wordsOf 2 s.fc.seq.toNat ++ wordsOf 4 r.dtb)
        { s with fc := { s.fc with soot := rest, seq := s.fc.seq + 1 } }

/-- SOOT_ENTRY_WRITE. -/
def execSootEntryWrite (s : State) : Host.Outcome State Fault Refusal := act s sootWrite

/-- A write of SOOT_IDX loads an entry into SOOT_DATA (R348). -/
def sootLoad (val : Word) (s : State) : State :=
  let e := fld val 11 0
  setRgs 6 0x48 ((span (8 * e) 8).map fun k => mramGet k s) (setRg 6 0x43 (wd e) s)

/-- SOOT_LOAD. -/
def execSootLoad (src : Src) (val : Word) (s : State) : Host.Outcome State Fault Refusal :=
  actWrite src (ra 6 0x43) val s (sootLoad val)

/-! ### Self-tests (R349, R350) -/

/-- A self-test kind serves a block. -/
def testServes (kind : Nat) (b : Blk) : Bool :=
  match b with
  | .stoker _ => kind == 1
  | .firebox _ | .hearth _ => kind == 2 || kind == 3
  | .draught _ => kind == 4
  | .grate _ => kind == 5 || kind == 6
  | .quad _ => kind == 7
  | .damper => kind == 8
  | _ => false

/-- Step time in ns of a kind that may be deferred. -/
def testTime (kind : Nat) : Option Nat :=
  if kind = 1 then some 2400 else if kind = 3 then some 3000 else if kind = 4 then some 1000
  else if kind = 5 then some 1500 else if kind = 6 then some 192 else if kind = 8 then some 500 else none

/-- Steps of a kind. -/
def testSteps (kind : Nat) : Nat := if kind = 3 then 16 else 1

/-- Subchannels with a program, as start-pending, active, suspended or halted. -/
def busySubs (s : State) : List Nat := (s.sch.filter fun kx => hasProgram kx.2.st).map fun kx => kx.1

/-- A subchannel has an in-service path through a grate or lane. -/
def pathThrough (isLane : Bool) (num sub : Nat) (s : State) : Bool :=
  (pathsThrough isLane num sub s).any fun n => pathUp sub n s

/-- The block owns active subchannels (R350). -/
def ownsActive (b : Blk) (s : State) : Bool :=
  match b with
  | .stoker k => (busySubs s).any fun n => stkOf n == k
  | .firebox f => (busySubs s).any fun n => subFbx n == f
  | .draught f => (busySubs s).any fun n => subFbx n == f
  | .hearth h => (busySubs s).any fun n => n / 1024 == h
  | .grate g => (busySubs s).any fun n => pathThrough false g n s
  | .quad q => (busySubs s).any fun n => (span (4 * q) 4).any fun l => pathThrough true l n s
  | _ => false

/-- The ash condition of a kind holds for a block (R349). -/
def ashCond (kind : Nat) (b : Blk) (s : State) : Bool :=
  match b with
  | .stoker k => rg (bStk k) 0x402 s == 0
  | .draught f => (span (16 * f) 16).all fun n => let c := chan n s; c.st == .idle || c.st == .done || c.st == .stopped
  | .grate g => kind == 6 || (!(grate g s).run && (span (8 * g) 8).all fun k => (fifo k s).q.isEmpty)
  | _ => kind != 2 && kind != 7

/-- Change the self-test in hand. -/
def modTest (f : SelfTest → SelfTest) (s : State) : State := { s with fc := { s.fc with test := f s.fc.test } }

/-- A write of ST_REQ (R349, R350). -/
def testRequest (val : Word) (s : State) : State :=
  let kind := fld val 15 12
  let n := fld val 11 0
  let b := blkOf n
  let busy := s.fc.test.st == .running || s.fc.test.st == .deferred
  let put (st : StSt) (t : State) : State :=
    modTest (fun _ => { st := st, kind := BitVec.ofNat 4 kind, blk := BitVec.ofNat 12 n, steps := 0, skipped := 0 }) t
  if busy then setRgBit 6 1 6 true s
  else if !testServes kind b then put .refused s
  else if kind = 6 then put .deferred s
  else if !ownsActive b s then put .running s
  else match testTime kind with
    | some t => if ashCond kind b s && decide (t + 656 ≤ s.ft.ash) then put .deferred s else put .refused s
    | none => put .refused s

/-- SELF_TEST_REQUEST. -/
def execSelfTestRequest (src : Src) (val : Word) (s : State) : Host.Outcome State Fault Refusal :=
  actWrite src (ra 6 0x30) val s (testRequest val)

/-- The turn of a deferred test in an ash slot (R350): one step, or a skipped slot; 16 skipped in a row end it. -/
def testStep (s : State) : State :=
  let t := s.fc.test
  if t.st != .deferred || t.kind = 6 || !s.ft.inAsh || testSteps t.kind.toNat ≤ t.steps then s
  else if ashCond t.kind.toNat (blkOf t.blk.toNat) s then modTest (fun x => { x with steps := x.steps + 1, skipped := 0 }) s
  else if 15 ≤ t.skipped then modTest (fun x => { x with st := .refused }) s
  else modTest (fun x => { x with skipped := x.skipped + 1 }) s

/-- SELF_TEST_STEP. -/
def execSelfTestStep (s : State) : Host.Outcome State Fault Refusal := act s testStep

/-- The test in hand has its result (R350): a FAIL leaves a soot record, raises FC_ST_FAIL and retires a stoker. -/
def testResult (pass : Bool) (s : State) : State :=
  let t := s.fc.test
  let s1 := modTest (fun x => { x with
    st := if pass then .pass else .fail
    steps := if x.st == .running then testSteps x.kind.toNat else x.steps }) s
  if pass then s1
  else
    let s2 := raise 6 1 0 (sootAdd (wd (64 + t.kind.toNat)) (wd (4 * 4096 + t.blk.toNat)) false s1)
    match blkOf t.blk.toNat with
    | .stoker k => retireStoker k s2
    | _ => s2

/-- A self-test that runs, or a deferred one whose steps are done, completes. A pin calibration completes in the ash slot
(R211). -/
def testComplete (pass : Bool) (s : State) : State :=
  let t := s.fc.test
  if t.st == .running || (t.st == .deferred && t.kind != 6 && decide (testSteps t.kind.toNat ≤ t.steps)) then testResult pass s
  else s

/-- SELF_TEST_COMPLETE. -/
def execSelfTestComplete (pass : Bool) (s : State) : Host.Outcome State Fault Refusal := act s (testComplete pass)

/-- ST_STAT as read. -/
def stStat (s : State) : Word :=
  let st := match s.fc.test.st with | .idle => 0 | .running => 1 | .deferred => 2 | .refused => 3 | .pass => 4 | .fail => 5
  wd (st * 8192 + s.fc.test.blk.toNat)

/-! ### The ash slot (R42, R211, R238) -/

/-- A bank of four grates is calibrated: CAL_FAIL, and when it is out of range GRT_CAL of its grates' first and a path fault on their paths
(R211). -/
def bankCal (bad : Bool) (bank : Nat) (s : State) : State :=
  let s1 := setRgBit (bGrt (4 * bank)) 3 15 bad
    (forAll (span (4 * bank) 4) (fun g => modGrate g fun x => { x with calAge := 0 }) s)
  if !bad then s1
  else forAll (span (4 * bank) 4) (fun g => reportPathFault false g) (raise (bGrt (4 * bank)) 5 0 s1)

/-- A bank's calibration is due: CAL_EVERY frames have passed, or a pin calibration is asked for. -/
def bankDue (bank : Nat) (s : State) : Bool :=
  decide (fld (rg (bGrt (4 * bank)) 3 s) 7 0 ≤ (grate (4 * bank) s).calAge) ||
    (s.fc.test.st == .deferred && s.fc.test.kind == 6 &&
      (match blkOf s.fc.test.blk.toNat with | .grate g => g / 4 == bank | _ => false))

/-- The ash slot begins: every open window ends (R42), source 0x3CA rises, banks calibrate, and an asked-for pin calibration gets its
result. -/
def ashStart (calFail : Word) (s : State) : State :=
  if !s.ft.running || s.ft.inAsh then s
  else
    let s1 := forAll (span 0 8) (fun h => evEdge h 0x3CA) (closeWindows (modFt (fun f => { f with inAsh := true }) s))
    let s2 := forAll (span 0 16) (fun b t => if bankDue b s then bankCal (bit calFail b) b t else t) s1
    if s.fc.test.st == .deferred && s.fc.test.kind == 6 then
      match blkOf s.fc.test.blk.toNat with
      | .grate g => testResult (!bit calFail (g / 4)) (modTest (fun x => { x with steps := 1 }) s2)
      | _ => s2
    else s2

/-- ASH_SLOT_START. -/
def execAshSlotStart (calFail : Word) (s : State) : Host.Outcome State Fault Refusal := act s (ashStart calFail)

end Sys2Proof.Machine
end

