-- ==== Sys2Proof/Machine/PinRows.lean ====
section
/-! DEFINITION. The pin engines' commands (R183 to R202): ownership, accepted edges and capture, the fire queue, pin writes,
readback, direction pins, FIFO commands, bank supplies. -/
namespace Sys2Proof.Machine
open Sys2Proof

/-- GRATE_OWNER_REQUEST (R185): the requested owner waits for the next tick. -/
def grateOwnWrite (g : Nat) (val : Word) (s : State) : State :=
  setRg (bGrt g) 0 (val &&& 0x3F) (modGrate g (fun x => { x with ownReq := some (BitVec.ofNat 6 (fld val 5 0)) }) s)

/-- GRATE_OWNER_REQUEST. -/
def execGrateOwnerRequest (src : Src) (g : GrateNo) (val : Word) (s : State) : Host.Outcome State Fault Refusal :=
  actWrite src (ra (bGrt g.toNat) 0) val s (grateOwnWrite g.toNat val)

/-! ### FIFO overruns and underruns (R199) -/

/-- FIFO k needs the next segment of a bound channel that waits for it at a segment boundary: CHAINCHK (R64, R250). -/
def chainLate (k : Nat) (s : State) : State :=
  let late := s.chans.filterMap fun kc =>
    match kc.2.bound with
    | some sub => if chFifo kc.2 == some k && (sch sub s).dcFetch.isSome then some sub else none
    | none => none
  forAll late (fun sub t => addDue (.abort sub 0x20 0 0 (sch sub t).lastAux) t) s

/-- An overrun of an inbound or underrun of an outbound grate FIFO: FIFO_XRUN_CNT, the fault, and CHAINCHK where the next
segment of a bound channel is not ready (R64, R199). -/
def fifoXrun (k : Nat) (s : State) : State :=
  chainLate k
    (raise (bGrt (k / 8)) (if fifoInbound k then 1 else 2) 0 (count (bGrt (k / 8)) (0x420 + 4 * (k % 8)) s))

/-! ### Input (R186 to R188) -/

/-- SKEW of pin p in fine steps. -/
def pinSkew (p : Nat) (s : State) : Int := sx 8 (fld (rg (bGrt (p / 16)) (0x20 + p % 16) s) 15 8)

/-- The capture record of an edge, whole or not at all (R188). -/
def capture (p : Nat) (level : Bool) (stamp : W64) (s : State) : State :=
  let cfg := pinCfg p s
  let k := 8 * (p / 16) + fld cfg 9 8
  if !bit cfg 10 then s
  else if fifoFree k s < 5 then fifoXrun k s
  else fifoPuts k
    ((wd (b2n level * 32768 + p % 16) :: wordsOf 4 stamp.toNat).mapIdx fun i w => { w := w, eop := i == 4 }) s

/-- The level of the ball of pin p that the outside drives, or lets go when `float` (R186): then the device's own drive
shows, or the pull, or the level a keeper holds; with no pull it is the level that happens to be there. -/
def ballLevel (p : Nat) (level float : Bool) (s : State) : Bool :=
  if !float then level
  else match ballDrive p s with
    | some d => d
    | none => match fld (pinCfg p s) 12 11 with
      | 0 => level
      | 1 => true
      | 2 => false
      | _ => (pin p s).lvl

/-- FILT of pin p: a level is accepted when it has held FILT + 1 gc (R186). -/
def pinFilt (p : Nat) (s : State) : Nat := fld (rg (bGrt (p / 16)) (0x20 + p % 16) s) 7 0

/-- The stamp of an edge of pin p: the calibrated input delay is out of it already, SKEW goes off (R187). -/
def edgeStamp (p : Nat) (stamp : W64) (s : State) : W64 := BitVec.ofNat 64 (tc 64 ((stamp.toNat : Int) - pinSkew p s))

/-- The pin engine's part of an accepted edge with its stamp (R187, R188, R210). -/
def edgeTaken (p : Nat) (level : Bool) (t : W64) (s : State) : State :=
  let s1 := capture p level t (modPin p (fun q => { q with lvl := level, stamp := t }) (reachFine t.toNat s))
  if bit (pinCfg p s) 7 then grateEdge (p / 16) 13 s1 else s1

/-! ### The fire queue (R190 to R193) -/

/-- Minimum edge separation of the bank of pin p in fine steps (R192, R196). -/
def minSep (p : Nat) (s : State) : Nat :=
  [32, 32, 32, 64, 80].getD (fld (rg (bGrt (p / 64 * 4)) 2 s) 2 0) 80

/-- The entry of pin p that fires next: the lowest fire time of those not tentative. -/
def fqNext (p : Nat) (s : State) : Option FqEntry :=
  ((pin p s).fq.filter fun e => !e.tent).foldl
    (fun a e => match a with | none => some e | some x => if e.time < x.time then some e else a) none

/-- The ball time of an action placed at fine-step time t: SKEW acts on the output as on the input (R212). DESIGN CHOICE
(log 93): a positive SKEW takes its steps off both. -/
def ballTime (p t : Nat) (s : State) : Nat := ((t : Int) - pinSkew p s).toNat

/-- When an entry with this fire time fires: at least the bank's separation after the last action (R192). -/
def fireTime (p time : Nat) (s : State) : Nat :=
  match (pin p s).lastAct with
  | some l => max (ballTime p time s) (l + minSep p s)
  | none => ballTime p time s

/-- Entry e of pin p fires (R190, R192). -/
def fireEntry (p : Nat) (e : FqEntry) (s : State) : State :=
  let t := fireTime p e.time s
  let s1 := doIf (decide (ballTime p e.time s < t)) (count (bGrt (p / 16)) 0x402) s
  pinAct p e.act.toNat t 2 (modPin p (fun q => { q with fq := q.fq.erase e }) s1)

/-- The oldest late action of pin p takes effect (R191). -/
def lateEffect (p t : Nat) (a : BitVec 2) (s : State) : State :=
  pinAct p a.toNat (ballTime p t s) 2 (modPin p (fun q => { q with late := q.late.drop 1 }) (reachFine t s))

/-- FIRE_QUEUE_FIRE: the entry or the late action whose time comes first takes effect, the entry first at the same time. -/
def fireFirst (p : Nat) (s : State) : State :=
  match fqNext p s, (pin p s).late with
  | none, [] => s
  | none, (t, a) :: _ => lateEffect p t a s
  | some e, [] => fireEntry p e (reachFine (fireTime p e.time s) s)
  | some e, (t, a) :: _ =>
    if fireTime p e.time s ≤ ballTime p t s then fireEntry p e (reachFine (fireTime p e.time s) s) else lateEffect p t a s

/-- FIRE_QUEUE_FIRE. -/
def execFireQueueFire (pin : DevPin) (s : State) : Host.Outcome State Fault Refusal := act s (fireFirst pin.toNat)

/-- An entry joins the queue; one with the same fire time is replaced and counted (R190). A tentative entry leaves a
committed one in place until its path is confirmed (R100, R104, R105). -/
def fqAdd (p : Nat) (e : FqEntry) (s : State) : State :=
  let gone (x : FqEntry) : Bool := x.time == e.time && (x.tent || !e.tent)
  doIf ((pin p s).fq.any gone) (count (bGrt (p / 16)) 0x404)
    (modPin p (fun q => { q with fq := q.fq.filter (fun x => !gone x) ++ [e] }) s)

/-- A late write that arrived at fine-step time a (R191): counted; its action takes effect at a + 32, or is discarded under
LATE_POL = 1. -/
def fireLate (p a : Nat) (e : FqEntry) (s : State) : State :=
  let s1 := count (bGrt (p / 16)) 0x400 s
  let s2 := match e.sub with
    | some sub => schCount sub 0x1E (modSch sub (fun x => { x with late := true }) s1)
    | none => s1
  let discard := match e.sub with
    | some sub => bit (schCfg sub 1 s) 0
    | none => false
  if discard then s2 else modPin p (fun q => { q with late := q.late ++ [(a + 32, e.act)] }) s2

/-- The tentative write's path is still live (R105). -/
def tentLive (p : Nat) (e : FqEntry) (s : State) : Bool :=
  match e.sub with
  | some sub => (match specOf sub s with | some q => q.tents.contains (p, e.time) | none => false)
  | none => false

/-- The oldest fire-queue write on its way to pin p arrives at fine-step time a (R191). One whose speculative path is gone
is gone with it. -/
def fireArrive (p a : Nat) (s : State) : State :=
  match (pin p s).flying with
  | [] => s
  | e :: rest =>
    let s1 := reachFine a (modPin p (fun q => { q with flying := rest }) s)
    if e.tent then (if tentLive p e s then fqAdd p e s1 else s1)
    else if a + 32 ≤ e.time then fqAdd p e s1
    else fireLate p a e s1

/-- FIRE_ARRIVAL. -/
def execFireArrival (pin : DevPin) (arrival : W64) (s : State) : Host.Outcome State Fault Refusal :=
  act s (fireArrive pin.toNat arrival.toNat)

/-! ### Pin writes and readback (R194, R339) -/

/-- The oldest PINW on its way to pin p takes effect. -/
def pinwEffect (p : Nat) (s : State) : State :=
  match (pin p s).pinw with
  | [] => s
  | a :: rest => pinAct p a.toNat (16 * s.ft.dtb) 1 (modPin p (fun q => { q with pinw := rest }) s)

/-- PIN_WRITE_EFFECT. -/
def execPinWriteEffect (pin : DevPin) (s : State) : Host.Outcome State Fault Refusal := act s (pinwEffect pin.toNat)

/-- The level a readback check of pin p compares with: that of the last action, or the bit of a character that stands on the
pin. -/
def checkLevel (p : Nat) (s : State) : Option Bool :=
  match choBit p s with
  | some _ => if pinForced p s || pinRetired p s then none else stateDrive p s
  | none => (pin p s).check

/-- The ball of pin p is sampled 8 gc after the last action (R339). -/
def pinReadback (p : Nat) (ball : Bool) (s : State) : State :=
  match checkLevel p s with
  | none => s
  | some v =>
    let s1 := modPin p (fun q => { q with check := none }) s
    if v = ball || pinForced p s || pinRetired p s then s1
    else raise (bGrt (p / 16)) 6 (wd (p % 16)) (setRg (bGrt (p / 16)) 8 (wd (0x8000 + p % 16)) s1)

/-- PIN_READBACK_CHECK. -/
def execPinReadbackCheck (pin : DevPin) (ball : Bool) (s : State) : Host.Outcome State Fault Refusal :=
  act s (pinReadback pin.toNat ball)

/-- PIN_STAT of device pin p as read. -/
def pinStat (p : Nat) (s : State) : Word :=
  let q := pin p s
  wd (b2n q.lvl * 32768 + b2n q.out * 16384 + b2n q.oe * 8192 + b2n (pinForced p s) * 4096 + q.fq.length)

/-! ### Direction pins (R195) -/

/-- Pin p enables its output, or has disabled it less than `lag` gc ago (R195). -/
def dirHolds (p lag : Nat) (s : State) : Bool :=
  (pin p s).oe || (match (pin p s).offAt with | some t => decide (s.ft.dtb < t + lag) | none => false)

/-- The level that direction pin Gg.Dk drives now (R195, R225): in mode 1 high as soon as a pin of its set enables, LEAD gc
before the pin's ball does, and until LAG gc after the last disables. -/
def dirPin (g k : Nat) (s : State) : Bool :=
  let c := rg (bGrt g) (4 + k) s
  let v := match fld c 15 14 with
    | 0 => bit c 12
    | 1 => (dirSet (fld c 2 0)).any fun p => dirHolds (16 * g + p) (fld c 6 3) s
    | _ => bit (grate g s).dirLvl k
  if s.safe.on then bit c 11 else v != bit c 13

/-! ### FIFO commands (R200, R201) -/

/-- FIFO_FLUSH. -/
def execFifoFlush (_src : Src) (fifo : FifoId) (s : State) : Host.Outcome State Fault Refusal :=
  act s (fifoFlush (FifoId.idx fifo))

/-- FIFO_DROP. -/
def execFifoDrop (_src : Src) (fifo : FifoId) (s : State) : Host.Outcome State Fault Refusal :=
  act s (fifoDropCmd (FifoId.idx fifo))

/-! ### Banks (R196) -/

/-- VDDIO in mV that VIO of bank n states. -/
def vioMv (n : Nat) (s : State) : Nat := [1200, 1500, 1800, 2500, 3300].getD (fld (rg (bGrt (4 * n)) 2 s) 2 0) 3300

/-- A supply of mv differs from VIO of bank n by more than 10 %. -/
def vioBad (n mv : Nat) (s : State) : Bool :=
  decide (10 * mv < 9 * vioMv n s) || decide (11 * vioMv n s < 10 * mv)

/-- The bank monitor has measured VDDIO and compares it with VIO: more than 10 % apart, GRT_VIO, and every path on the bank
reports a path fault. -/
def bankMismatch (n : Nat) (mv : Word) (s : State) : State :=
  let s1 := setRg 7 (0x120 + n) mv s
  if !vioBad n mv.toNat s then s1
  else forAll (span (4 * n) 4) (fun g => reportPathFault false g) (raise (bGrt (4 * n)) 0 0 s1)

/-- BANK_SUPPLY_MISMATCH. -/
def execBankSupplyMismatch (m : BankSupply) (s : State) : Host.Outcome State Fault Refusal :=
  act s (bankMismatch m.bank.toNat m.mv)

/-- A write of BANK_CFG: taken in grate 4n only; VIO 5 to 7 are reserved. -/
def bankCfgWrite (g : Nat) (val : Word) (s : State) : State :=
  if g % 4 ≠ 0 then s
  else if 4 < fld val 2 0 then setRgBit (bGrt g) 1 7 true s
  else setRg (bGrt g) 2 (wd (fld val 2 0)) s

/-- DRIVE settings that the bank of pin p offers (R196): the highest code. -/
def driveMax (p : Nat) (s : State) : Nat := [1, 2, 3, 3, 3].getD (fld (rg (bGrt (p / 64 * 4)) 2 s) 2 0) 3

/-- A write of PIN_CFG: a DRIVE that the bank's VIO does not offer is a reserved value (R15, R196); DIRSEQ is in pin 0
only. -/
def pinCfgWrite (p : Nat) (val : Word) (s : State) : State :=
  let g := p / 16
  let old := pinCfg p s
  let v := val &&& (if p % 16 = 0 then 0xFFC0 else 0xFF80)
  if driveMax p s < fld v 15 14 then
    setRgBit (bGrt g) 1 7 true (setRg (bGrt g) (0x10 + p % 16) (setFld v 15 14 (fld old 15 14)) s)
  else setRg (bGrt g) (0x10 + p % 16) v s

end Sys2Proof.Machine
end

