-- ==== Sys2Proof/Machine/Lanes.lean ====
section
/-! DEFINITION. The commands of the chimney lanes (R254 to R265): mode, rate and ownership writes, received and sent frames,
link, lock and negotiation, the status post. -/
namespace Sys2Proof.Machine
open Sys2Proof

/-- FEC settings that a mode takes (R261): those of the Ethernet modes are limited. -/
def fecOk (mode fec : Nat) : Bool :=
  if mode = 2 then true
  else if mode = 3 then fec != 2
  else if 4 ≤ mode && mode ≤ 6 then fec == 0
  else true

/-- Whether the quad of lane l can give the PLL that a mode needs (R254). -/
def modePll (l mode : Nat) (s : State) : Bool :=
  if mode = 5 || mode = 6 then !pll1Pcie (l / 4) s && rg (bQd (l / 4)) 1 s == 1250
  else if mode = 7 || mode = 8 then !pll1Pcie (l / 4) s
  else true

/-- A write of LN_MODE (R254, R255): refused on a mode conflict, for a lane of the bulk port or for a retired one; a
reserved MODE or FEC leaves that field as it is (R15). -/
def laneModeWrite (l : Nat) (val : Word) (s : State) : State :=
  let old := lnReg l 0 s
  let mRes := fld val 15 12 == 1 || decide (8 < fld val 15 12)
  let mode := if mRes then fld old 15 12 else fld val 15 12
  let fRes := !fecOk mode (fld val 11 10)
  let v := setFld (setFld (val &&& 0xFFF8) 15 12 mode) 11 10 (if fRes then fld old 11 10 else fld val 11 10)
  if decide (l < bulkLanes s) || laneRetired l s || !modePll l mode s then setLnBit l 2 6 true s
  else doIf (mRes || fRes) (setLnBit l 2 7 true) (setLn l 0 v (laneTake l s))

/-- LANE_MODE_WRITE. -/
def execLaneModeWrite (src : Src) (l : LaneNo) (val : Word) (s : State) : Host.Outcome State Fault Refusal :=
  actWrite src (ra (bQd (l.toNat / 4)) (lnOfs l.toNat 0)) val s (laneModeWrite l.toNat val)

/-- A write of QD_RATE (R254): discarded while a lane of the quad is in mode 5 to 8. -/
def qdRateWrite (q : Nat) (val : Word) (s : State) : State :=
  if (span (4 * q) 4).any fun l => decide (5 ≤ laneMode l s) && decide (laneMode l s ≤ 8) then setRgBit (bQd q) 0 6 true s
  else if val.toNat < 1000 || 6250 < val.toNat then setRgBit (bQd q) 0 7 true s
  else setRg (bQd q) 1 val s

/-- QD_RATE_WRITE. -/
def execQdRateWrite (src : Src) (q : QuadNo) (val : Word) (s : State) : Host.Outcome State Fault Refusal :=
  actWrite src (ra (bQd q.toNat) 1) val s (qdRateWrite q.toNat val)

/-- A write of LN_OWN (R256): the requested owner waits for the next tick. -/
def laneOwnWrite (l : Nat) (val : Word) (s : State) : State :=
  modLane l (fun x => { x with ownReq := some (val &&& 0x7F) }) s

/-- LN_OWN as read: the owner in force (R256). -/
def lnOwn (l : Nat) (s : State) : Word :=
  match (lane l s).own with
  | some f => wd f.toNat
  | none => 0x40

/-- LANE_OWNER_REQUEST. -/
def execLaneOwnerRequest (src : Src) (l : LaneNo) (val : Word) (s : State) : Host.Outcome State Fault Refusal :=
  actWrite src (ra (bQd (l.toNat / 4)) (lnOfs l.toNat 1)) val s (laneOwnWrite l.toNat val)

/-! ### Frames (R257 to R264) -/

/-- Bytes packed into words, the last word tagged EOP when the run ends a packet (R10, R257). -/
def packFrame (eop : Bool) : List Byte → List FWord
  | [] => []
  | [b] => [{ w := b ++ (0#8), eop := eop, odd := true }]
  | b :: c :: r => { w := b ++ c, eop := eop && r.isEmpty } :: packFrame eop r

/-- A frame is discarded and counted (R259). -/
def rxDrop (l : Nat) (s : State) : State := lnCount l 0x84 s

/-- The words of a frame enter RXD, as far as there is room, and its record enters RXS (R258, R259). -/
def rxDeliver (l : Nat) (bytes : List Byte) (st : Word) (stamp : W64) (s : State) : State :=
  let k := lnFifo l 0
  let ws := packFrame true bytes
  let n := fifoFree k s
  let drop := (fifo k s).dropping
  let cut := !drop && decide (n < ws.length)
  let put := if cut then (ws.take n).mapIdx fun i w => { w with eop := i + 1 == n, odd := false } else ws
  let s1 := doIf cut (chainLate k) (fifoPuts k put s)
  let rec_ := [setBit st 11 (bit st 11 || cut), wd (if drop then 0 else if cut then 2 * n else bytes.length)] ++ wordsOf 4 stamp.toNat
  lnCount l 0x80 (fifoPuts (lnFifo l 1) (rec_.mapIdx fun i w => { w := w, eop := i == 5 }) s1)

/-- A frame or packet is received (R258 to R262). -/
def frameReceived (l : Nat) (fr : RxFrame) (s : State) : State :=
  let m := laneMode l s
  let mode := lnReg l 0 s
  let codeErr := fr.codeErrs != 0
  if m < 2 || !bit (lnReg l 2 s) 15 then s
  else
    let s1 := doIf (codeErr || fr.trunc) (raise (bQd (l / 4)) (4 * (l % 4) + 2) (wd l))
      (countBy (bQd (l / 4)) (lnOfs l 0x8C) fr.fecCorr.toNat (reachFine fr.stamp.toNat s))
    let s2 := doIf (decide (7 ≤ m)) (countBy (bQd (l / 4)) (lnOfs l 0x8A) (fr.codeErrs.toNat + b2n fr.trunc)) s1
    let s3 := doIf (isEther m && fr.fcsErr) (lnCount l 0x82) s2
    if m = 8 then
      let ws := packFrame false fr.bytes
      doIf (decide (fifoFree (lnFifo l 0) s3 < ws.length)) (chainLate (lnFifo l 0))
        (fifoPuts (lnFifo l 0) (ws.take (fifoFree (lnFifo l 0) s3)) s3)
    else if fifoFree (lnFifo l 1) s3 < 6 then rxDrop l s3
    else
      let runt := isEther m && decide (fr.bytes.length < 64)
      let tooLong := isEther m && decide ((lnReg l 4 s3).toNat < fr.bytes.length)
      let fcs := isEther m && fr.fcsErr
      if (runt || tooLong || codeErr || fcs) && !bit mode 4 then rxDrop l s3
      else
        let bytes := if isEther m && bit mode 5 then fr.bytes.take (fr.bytes.length - 4) else fr.bytes
        let st := wd (b2n fcs * 32768 + b2n runt * 16384 + b2n tooLong * 8192 + b2n codeErr * 4096 + b2n fr.trunc * 2048)
        rxDeliver l bytes st fr.stamp s3

/-- LANE_FRAME_RECEIVED. -/
def execLaneFrameReceived (l : LaneNo) (fr : RxFrame) (s : State) : Host.Outcome State Fault Refusal :=
  act s (frameReceived l.toNat fr)

/-- The lane can start a frame (R260, R262): its EOP word is in TXD, or TXSTART words of it; in stream mode any word. In safe state it starts none
(R343). -/
def txReady (l : Nat) (s : State) : Bool :=
  let q := (fifo (lnFifo l 2) s).q
  let n := fld (lnReg l 5 s) 12 0
  !s.safe.on && decide (2 ≤ laneMode l s) && bit (lnReg l 2 s) 15 && !(lane l s).sending &&
    (q.any (fun w => w.eop) || (laneMode l s == 8 && !q.isEmpty) || (decide (n ≠ 0) && decide (n ≤ q.length)))

/-- Words leave TXD for the line: up to and including the first EOP word. -/
def txTake (l : Nat) (s : State) : State :=
  let k := lnFifo l 2
  let q := (fifo k s).q
  let got := q.takeWhile (fun w => !w.eop) ++ (q.dropWhile fun w => !w.eop).take 1
  modLane l (fun x => { x with txWords := x.txWords ++ got })
    (modFifo k (fun f => { f with q := q.drop got.length, mid := !got.any (fun w => w.eop) }) s)

/-- LANE_FRAME_TRANSMIT_START (R260): the stamp is the time at which the first bit crosses the ball (R264). -/
def txStart (l : Nat) (stamp : W64) (s : State) : State :=
  if txReady l s then
    txTake l (modLane l (fun x => { x with sending := true, txWords := [], txStamp := stamp }) (reachFine stamp.toNat s))
  else s

/-- LANE_FRAME_TRANSMIT_START. -/
def execLaneFrameTransmitStart (x : FrameStart) (s : State) : Host.Outcome State Fault Refusal :=
  act s (txStart x.lane.toNat x.stamp)

/-- A frame has left the lane: the post that covers it delivers its DSTAT (R263). -/
def txPosted (l : Nat) (d : Byte) (s : State) : State :=
  let x := lane l s
  if x.post.isNone || x.lost then s
  else if x.ahead = 0 then lanePost l d false s
  else modLane l (fun y => { y with ahead := y.ahead - 1 }) s

/-- The frame being sent ends (R260, R262, R263): whole, once its EOP word has been taken, or by an underrun where TXD has run
empty inside it; an Ethernet frame then ends with an invalid FCS. In stream mode idles fill every gap and a run of words that
ends with an EOP word ends a frame. -/
def txEnd (l : Nat) (underrun : Bool) (s : State) : State :=
  if !(lane l s).sending then s
  else
    let s0 := if (lane l s).txWords.any (fun w => w.eop) then s else txTake l s
    let ws := (lane l s0).txWords
    let stamp := (lane l s).txStamp.toNat
    let whole := ws.any fun w => w.eop
    let done := modLane l (fun x => { x with sending := false, txWords := [] }) s0
    if laneMode l s = 8 then (if whole then txPosted l (lane l s).postDstat done else if underrun then done else s0)
    else if whole then
      txPosted l (lane l s).postDstat (txRecord l 0 (txBytes l ws s0) stamp (lnCount l 0x86 done))
    else if underrun then
      let s1 := raise (bQd (l / 4)) (4 * (l % 4)) (wd l) (lnCount l 0x88 (chainLate (lnFifo l 2) (txDiscard l s0)))
      txPosted l 0x06 (txRecord l 0x8000 (wordBytes ws + (if isEther (laneMode l s) then 4 else 0)) stamp s1)
    else s0

/-- The last bit of the frame being sent leaves at fine-step time t. -/
def txEndAt (l : Nat) (underrun : Bool) (t : Nat) (s : State) : State :=
  if (lane l s).sending then txEnd l underrun (reachFine t s) else s

/-- LANE_FRAME_TRANSMIT_END: the lane, whether it ends by an underrun, and the instant. -/
def execLaneFrameTransmitEnd (l : LaneNo) (underrun : Bool) (stamp : W64) (s : State) : Host.Outcome State Fault Refusal :=
  act s (txEndAt l.toNat underrun stamp.toNat)

/-! ### Link and status -/

/-- LINK changes on a lane in a line mode (R261); `sent`: bytes that had left of a frame being sent. -/
def linkChange (l : Nat) (v : Bool) (sent : Nat) (s : State) : State :=
  if laneMode l s < 2 then s else laneLink l v sent s

/-- LANE_LINK_CHANGE. -/
def execLaneLinkChange (l : LaneNo) (x : LinkNow) (s : State) : Host.Outcome State Fault Refusal :=
  act s (linkChange l.toNat x.up x.sent.toNat)

/-- What auto-negotiation can resolve on a lane (R261): with AN = 1, what the lane advertises in its mode, with a FEC setting
that it is configured for; an SGMII lane takes its partner's speed. -/
def anMay (l res fec : Nat) (s : State) : Bool :=
  let w := lnReg l 0 s
  let m := laneMode l s
  let set := fld w 11 10
  if m = 2 then
    bit w 9 && (if res = 1 then fec != 3 && (set == 3 || set == fec)
      else res == 2 && bit w 8 && decide (fec < 2) && (set == 3 || set == fec || (set == 2 && fec == 0)))
  else if m = 3 then bit w 9 && res == 2 && decide (fec < 2) && (set == 3 || set == fec)
  else if m = 5 then bit w 9 && (res == 0 || res == 5) && fec == 0
  else m == 6 && decide (3 ≤ res) && decide (res ≤ 5) && fec == 0

/-- Auto-negotiation completes (R261, R265): AN_DONE, what it resolved, source 5. -/
def anComplete (l : Nat) (res fec : Nat) (s : State) : State :=
  if !anMay l res fec s then s
  else laneEdge l 5 (setLn l 2 (setFld (setFld (setBit (lnReg l 2 s) 14 true) 12 10 res) 9 8 fec) s)

/-- LANE_AN_COMPLETE. -/
def execLaneAnComplete (l : LaneNo) (res : BitVec 3) (fec : BitVec 2) (s : State) : Host.Outcome State Fault Refusal :=
  act s (anComplete l.toNat res.toNat fec.toNat)

/-- LN_STAT as read: without auto-negotiation the FEC in use is the one configured (R261). -/
def lnStat (l : Nat) (s : State) : Word :=
  let w := lnReg l 0 s
  let m := laneMode l s
  if (m == 2 || m == 3) && !bit w 9 && fld w 11 10 != 3 then setFld (lnReg l 2 s) 9 8 (fld w 11 10) else lnReg l 2 s

/-- A write of LN_TXARM (R263). -/
def laneArm (src : Src) (l : Nat) (val : Word) (s : State) : State :=
  let x := lane l s
  let ours : Option Nat := match src with
    | .stoker sub => if x.own.map (fun f => f.toNat) == some (subFbx sub.toNat) then some sub.toNat else none
    | _ => none
  match ours with
  | none => setLnBit l 2 4 true s
  | some sub =>
    if x.post.isSome then setLnBit l 2 4 true s
    else modLane l (fun y => { y with
      post := some sub, postDstat := BitVec.ofNat 8 (fld val 7 0), tgtOver := false, lost := false,
      ahead := eops (fifo (lnFifo l 2) s).q + (if y.sending && y.txWords.any (fun w => w.eop) then 1 else 0) }) s

/-- LANE_STATUS_ARM. -/
def execLaneStatusArm (src : Src) (l : LaneNo) (val : Word) (s : State) : Host.Outcome State Fault Refusal :=
  act s (laneArm src l.toNat val)

/-- LN_POSTTGT as read (R263). -/
def lnPosttgt (l : Nat) (s : State) : Word :=
  match (lane l s).post with
  | some sub => wd (0x8000 + sub)
  | none => 0

/-- A quad PLL locks (R254). -/
def quadLock (q : Nat) (pll1 : Bool) (s : State) : State := setRgBit (bQd q) 0 (if pll1 then 14 else 15) true s

/-- QUAD_PLL_LOCK. -/
def execQuadPllLock (q : QuadNo) (pll1 : Bool) (s : State) : Host.Outcome State Fault Refusal :=
  act s (quadLock q.toNat pll1)

/-- QD_STAT as read: PLL1_PCIE is the bulk port's use of the quad. -/
def qdStat (q : Nat) (s : State) : Word := setBit (rg (bQd q) 0 s) 13 (pll1Pcie q s)

/-- LOCK of a lane changes. -/
def laneLock (l : Nat) (v : Bool) (s : State) : State := if laneMode l s < 2 then s else setLnBit l 2 13 v s

/-- LANE_LOCK_CHANGE. -/
def execLaneLockChange (l : LaneNo) (lock : Bool) (s : State) : Host.Outcome State Fault Refusal :=
  act s (laneLock l.toNat lock)

/-- A write of LN_8B: a delimiter that is no valid K character is a reserved value of its field (R15, R262). -/
def ln8bWrite (l : Nat) (val : Word) (s : State) : State :=
  let ok (hi : Nat) : Bool := Config.validK (BitVec.ofNat 8 (fld val (hi + 7) hi))
  let old := lnReg l 6 s
  let v := setFld (setFld old 15 8 (if ok 8 then fld val 15 8 else fld old 15 8)) 7 0
    (if ok 0 then fld val 7 0 else fld old 7 0)
  doIf (!(ok 8 && ok 0)) (setLnBit l 2 7 true) (setLn l 6 v s)

end Sys2Proof.Machine
end

