-- ==== Sys2Proof/Machine/Bulk.lean ====
section
/-! DEFINITION. The PCI Express bulk port's commands that reach no memory (R266, R267): link changes, retraining, function
reset, power state and masks, requests it does not support. -/
namespace Sys2Proof.Machine
open Sys2Proof

/-- Change the bulk port's own state. -/
def modBulk (f : Bulk → Bulk) (s : State) : State := { s with bulk := f s.bulk }

/-- The bulk port's link is up (BLK_STAT.LINKUP). -/
def blkUp (s : State) : Bool := s.bulk.linkUp

/-- A completion of the bulk port leaves. -/
def blkCpl (st : Nat) (ws : List Word) (s : State) : State := modBulk (fun b => { b with cpl := b.cpl ++ [(st, ws)] }) s

/-- The link goes down (R267): counted, BLK_LINKDN, and reads in flight are discarded, with what the flue owes the one in
hand. -/
def blkLinkDown (s : State) : State :=
  if !s.bulk.linkUp then s
  else
    let s1 := match s.bulk.jobs with
      | j :: _ => if j.wr then s else { s with
          outst := s.outst.filter fun kv => kv.2 != .win 1, winGot := s.winGot.filter fun g => g.1 != 1 }
      | [] => s
    raise 0xB 0 0 (count 0xB 0x14
      (modBulk (fun b => { b with linkUp := false, nwidth := 0, ngen := 0, cpl := [], jobs := b.jobs.filter fun j => j.wr }) s1))

/-- The link comes up (R266), at no more than the width and rate of the last training; RETRAIN reads 0 again. -/
def blkLinkUp (width gen : BitVec 2) (s : State) : State :=
  if s.bulk.on && !s.bulk.linkUp && decide (width.toNat ≤ s.bulk.width.toNat) && decide (gen.toNat ≤ s.bulk.gen.toNat) then
    setRgBit 0xB 0 14 false (modBulk (fun b => { b with linkUp := true, nwidth := width, ngen := gen }) s)
  else s

/-- BULK_LINK_UP. -/
def execBulkLinkUp (width gen : BitVec 2) (s : State) : Host.Outcome State Fault Refusal := act s (blkLinkUp width gen)

/-- A write of BLK_CTL: with RETRAIN the link goes down and EN, WIDTH and GEN apply; a lane that the port takes leaves its
own mode (R254, R266). RETRAIN reads 1 until the link is up. -/
def blkCtlWrite (val : Word) (s : State) : State :=
  let s1 := setRg 0xB 0 ((val &&& 0xBC00) ||| (if bit val 14 then (if bit val 15 then 0x4000 else 0) else rg 0xB 0 s &&& 0x4000)) s
  if !bit val 14 then s1
  else
    let s2 := blkLinkDown s1
    let s3 := modBulk (fun b => { b with
      on := bit val 15, width := BitVec.ofNat 2 (fld val 13 12), gen := BitVec.ofNat 2 (fld val 11 10) }) s2
    forAll ((span 0 (bulkLanes s3)).filter fun l => decide (bulkLanes s2 ≤ l)) laneTake s3

/-- The register keys of the MSI-X table and the pending bits. -/
def msixRegs : List Nat := span (ra 0xB 0x1000) 520 ++ span (ra 0xB 0x1400) 5

/-- Function Level Reset, or a hot reset (R267): the function's PCI Express state, the MSI-X table and the pending bits,
nothing else. -/
def blkFlr (s : State) : State :=
  modBulk (fun b => { b with d3 := false, bme := false, fnMask := false, msixEn := false })
    { s with regs := s.regs.filter fun kv => !msixRegs.contains kv.1 }

/-- FUNCTION_LEVEL_RESET: of the function, or a hot reset; the two clear the same. -/
def execFunctionLevelReset (s : State) : Host.Outcome State Fault Refusal := act s blkFlr

/-- The words a configuration read answers (R266). -/
def cfgField (f : CfgField) (s : State) : List Word :=
  match f with
  | .deviceId => [0x2416]
  | .vendorId => [Config.vendorId]
  | .classCode => [0x08, 0x8000]
  | .subsystemVendor => [rg 0xB 4 s]
  | .subsystem => [rg 0xB 5 s]
  | .command => [wd (b2n s.bulk.bme * 4)]
  | .powerState => [if s.bulk.d3 then 3 else 0]
  | .msixControl => [wd (b2n s.bulk.msixEn * 32768 + b2n s.bulk.fnMask * 16384 + 64)]

/-- What a configuration write changes (R266, R268): Bus Master Enable, D0 or D3hot, MSI-X Enable and the function mask, at
their places in PCI Express (PRESUMED, log entry 107). -/
def cfgPut (f : CfgField) (v : Word) (b : Bulk) : Bulk :=
  match f with
  | .deviceId | .vendorId | .classCode | .subsystemVendor | .subsystem => b
  | .command => { b with bme := bit v 2 }
  | .powerState => { b with d3 := if fld v 1 0 = 0 then false else b.d3 || fld v 1 0 == 3 }
  | .msixControl => { b with msixEn := bit v 15, fnMask := bit v 14 }

/-- A configuration request reads a field or writes it and is completed; messages no longer held are then sent (R266 to R268,
R328). -/
def blkConfig (wr : Bool) (f : CfgField) (v : Word) (s : State) : State :=
  if !s.bulk.linkUp then s
  else if wr then msixRelease (modBulk (cfgPut f v) (blkCpl 0 [] s))
  else blkCpl 0 (cfgField f s) s

/-- PCIE_CONFIG_REQUEST. -/
def execPcieConfigRequest (wr : Bool) (field : CfgField) (val : Word) (s : State) : Host.Outcome State Fault Refusal :=
  act s (blkConfig wr field val)

/-- A request the port does not support is answered with Unsupported Request (R266). -/
def blkUnsupported (s : State) : State := if !s.bulk.linkUp then s else blkCpl 1 [] s

/-- PCIE_UNSUPPORTED_REQUEST. -/
def execPcieUnsupportedRequest (s : State) : Host.Outcome State Fault Refusal := act s blkUnsupported

/-- BLK_STAT as read. -/
def blkStat (s : State) : Word :=
  wd (b2n s.bulk.linkUp * 32768 + s.bulk.nwidth.toNat * 8192 + s.bulk.ngen.toNat * 2048) ||| (rg 0xB 1 s &&& 0xF0)

end Sys2Proof.Machine
end

