-- ==== Sys2Proof/Machine/Damper.lean ====
section
/-! DEFINITION. The damper's commands (R214 to R227) and the end of safe state (R344). The damper keeps working while the
timebase is lost (R226). -/
namespace Sys2Proof.Machine
open Sys2Proof

/-- The damper works: out of reset, its core rail up, and the timebase locked or lost after it had locked (R226). -/
def damperUp (s : State) : Bool := s.pwr.resetN && !s.pwr.railLow && (s.pwr.pll || s.pwr.tbLost)

/-- The frame of the commands the damper's asynchronous logic takes. -/
def actDamper (s : State) (f : State → State) : Host.Outcome State Fault Refusal :=
  actAlways s fun t => if damperUp t then f t else t

/-- Offset of word n of rule r. -/
def ruleOfs (r n : Nat) : Nat := 0x1000 + 16 * r + n
/-- Rule word n as written. -/
def ruleW (r n : Nat) (s : State) : Word := rg 0xA (ruleOfs r n) s
/-- DMP_STAT.REQERR. -/
def reqErr (s : State) : State := setRgBit 0xA 1 6 true s
/-- DMP_CTL.LOCK. -/
def dmpLocked (s : State) : Bool := bit (rg 0xA 0 s) 0
/-- A write discarded under LOCK: DMP_STAT.LOCKW (R222). -/
def lockW (s : State) : State := setRgBit 0xA 1 5 true s

/-- A condition word holds now as far as levels tell: an edge is true at its instant only (R215). The levels are those of
the damper's own filter copies. -/
def levelTerm (w : Word) (s : State) : Bool :=
  if 2 ≤ fld w 15 14 then false else (pin (fld w 9 0) s).dlvl == (fld w 15 14 == 1)

/-- A condition word holds at the instant in which pin p takes a level: a level by its value, an edge of that kind on that
pin (R215). -/
def edgeTerm (p : Nat) (level : Bool) (w : Word) (s : State) : Bool :=
  if 2 ≤ fld w 15 14 then fld w 9 0 == p && level == (fld w 15 14 == 3) else levelTerm w s

/-- COMB joins two terms (R216). -/
def combine (w0 : Word) (a b : Bool) : Bool :=
  if fld w0 13 12 = 0 then a else if fld w0 13 12 = 1 then a && b else a || b

/-- COMB joins the level terms of a rule's words (R216). -/
def levelCond (w : List Word) (s : State) : Bool := combine (nth w 0) (levelTerm (nth w 1) s) (levelTerm (nth w 2) s)

/-- COMB joins the terms of a rule's words at the instant in which pin p takes a level (R216). -/
def edgeCond (p : Nat) (level : Bool) (w : List Word) (s : State) : Bool :=
  combine (nth w 0) (edgeTerm p level (nth w 1) s) (edgeTerm p level (nth w 2) s)

/-- The condition has an edge term. -/
def hasEdge (w : List Word) : Bool :=
  decide (2 ≤ fld (nth w 1) 15 14) || (fld (nth w 0) 13 12 != 0 && decide (2 ≤ fld (nth w 2) 15 14))

/-- Arming is refused (R220). -/
def armBad (w : List Word) : Bool :=
  let w0 := nth w 0
  let e1 := decide (2 ≤ fld (nth w 1) 15 14)
  let e2 := decide (2 ≤ fld (nth w 2) 15 14)
  fld w0 11 10 == 3 || fld w0 13 12 == 3 || fld w0 9 8 == 3 || (!bit w0 14 && hasEdge w) ||
    (fld w0 13 12 == 1 && e1 && e2)

/-- A latched action is in force (RULE_STAT.HELD). -/
def ruleHeld (r : Rule) : Bool := r.tripped && (bit (nth r.w 0) 14 || r.stuck)

/-- The condition of rule r is true now, or has become true and the damper has not yet acted on it. -/
def ruleCond (r : Nat) (s : State) : Bool := levelCond (rule r s).w s || (rule r s).seen.isSome

/-- RULE_STAT as read: ACTIVE is the condition itself, of an unarmed rule as well. -/
def ruleStat (r : Nat) (s : State) : Word :=
  wd (b2n (levelCond (rule r s).w s) * 32768 + b2n (ruleHeld (rule r s)) * 16384)

/-- A rule trips (R217): counted, stamped, DMP_TRIP and DMP_LAST when EVT is 1, safe state under ACTION 2. -/
def ruleTrip (r : Nat) (stamp : Nat) (s : State) : State :=
  let w := (rule r s).w
  let s1 := modRule r (fun x => { x with tripped := true }) s
  let s2 := setRgs 0xA (ruleOfs r 8) (wordsOf 4 (stamp % 2 ^ 64)) (count 0xA (ruleOfs r 6) s1)
  let s3 := if bit (nth w 0) 7 then raise 0xA 0 0 (setRg 0xA 3 (wd (0x8000 + r)) s2) else s2
  if fld (nth w 0) 11 10 = 2 then safeEnter 2 (some r) s3 else s3

/-- The condition of a rule is false: a follow-mode force ends (R217). -/
def ruleFalse (r : Nat) (s : State) : State :=
  modRule r (fun x => { x with fell := false, tripped := x.tripped && (bit (nth x.w 0) 14 || x.stuck) }) s

/-- The condition of rule r becomes true by an edge with this stamp: an accepted release is cancelled, or the rule trips
(R217, R221). -/
def ruleCame (r stamp : Nat) (s : State) : State :=
  let s1 := modRule r (fun y => { y with seen := none }) s
  if !(rule r s).tripped then ruleTrip r stamp s1
  else if (rule r s).relReq then reqErr (modRule r (fun y => { y with relReq := false }) s1)
  else s1

/-- The damper acts on the condition of a rule in force that an accepted edge has made true; a fall of the condition before
that edge comes first, and a fall since is still to come. -/
def ruleTrue (r : Nat) (s : State) : State :=
  match (rule r s).seen with
  | none => s
  | some stamp =>
    let t := ruleCame r stamp (doIf (rule r s).fell (ruleFalse r) s)
    modRule r (fun x => { x with fell := !levelCond x.w s }) t

/-- The same at fine-step time t, which the DTB reaches unless it is lost. -/
def ruleTrueAt (r t : Nat) (s : State) : State :=
  if (rule r s).seen.isNone then s else ruleTrue r (doIf (up s) (reachFine t) s)

/-- DAMPER_RULE_TRIP: the rule, and the instant at which the damper acts. -/
def execDamperRuleTrip (r : RuleNo) (stamp : W64) (s : State) : Host.Outcome State Fault Refusal :=
  actDamper s (ruleTrueAt r.toNat stamp.toNat)

/-- The damper acts on a condition that has become false. -/
def ruleGone (r : Nat) (s : State) : State := if (rule r s).fell then ruleFalse r s else s

/-- RULE_CONDITION_FALSE. -/
def execRuleConditionFalse (r : RuleNo) (s : State) : Host.Outcome State Fault Refusal := actDamper s (ruleGone r.toNat)

/-- What the damper sees of an accepted edge of pin p (R215 to R217): its filter copy takes the level, and every rule in
force that reads the pin notes that its condition has become true, with the stamp of the edge, or false. -/
def dmpEdge (p : Nat) (level : Bool) (stamp : W64) (s : State) : State :=
  let s1 := modPin p (fun q => { q with dlvl := level }) s
  forAll ((s.rules.filter fun kr => kr.2.inForce).map fun kr => kr.1) (fun r t =>
    let w := (rule r s).w
    let old := levelCond w s
    if !old && edgeCond p level w s1 then modRule r (fun x => { x with seen := some stamp.toNat }) t
    else if old && !levelCond w s1 then modRule r (fun x => { x with fell := true }) t
    else t) s1

/-! ### Rule words (R220 to R223) -/

/-- Writable bits of rule words w0 to w4. -/
def ruleMask (n : Nat) : Word := [0xFF80, 0xC3FF, 0xC3FF, 0x003F, 0xFFFF].getD n 0

/-- A rule word is stored; it takes effect later, and a parity error of the rule is written over (R220, R223). -/
def rulePut (r n : Nat) (v : Word) (s : State) : State :=
  modRule r (fun x => { x with changed := true, parity := x.parity && n != 0 }) (setRg 0xA (ruleOfs r n) v s)

/-- A rule is disarmed: its action ends at once (R221). -/
def ruleOff (r : Nat) (v : Word) (s : State) : State :=
  let s1 := setRg 0xA (ruleOfs r 0) v s
  modRule r (fun x => { x with
    inForce := false, tripped := false, seen := none, fell := false, relReq := false, parity := false, stuck := false, changed := false
    w := (span 0 5).map fun n => ruleW r n s1 }) s1

/-- The value a write of w0 stores: the reserved ACTION 3 leaves the field as it was (R15, R217). -/
def ruleW0Val (r : Nat) (val : Word) (s : State) : Word :=
  let v := val &&& ruleMask 0
  if fld v 11 10 = 3 then setFld v 11 10 (fld (ruleW r 0 s) 11 10) else v

/-- A write of w0: arms (checked), disarms (refused while HELD), or changes an armed or an unarmed rule; ACTION 3 sets BADW
(R15). DESIGN CHOICE (log 94): a refused write of ARM = 1 to an armed rule leaves the rule as it was. -/
def ruleW0Write (r : Nat) (val : Word) (s : State) : State :=
  if dmpLocked s then lockW s
  else
    let v := ruleW0Val r val s
    let armed := bit (ruleW r 0 s) 15
    let t := doIf (fld val 11 10 == 3) (setRgBit 0xA 1 7 true) s
    if armed && !bit v 15 then (if ruleHeld (rule r s) then reqErr t else ruleOff r v t)
    else if bit v 15 && armBad [val, ruleW r 1 s, ruleW r 2 s] then
      reqErr (if armed then t else rulePut r 0 (setBit v 15 false) t)
    else rulePut r 0 v t

/-- A write of w1 to w4. -/
def ruleWordWrite (r n : Nat) (val : Word) (s : State) : State :=
  if dmpLocked s then lockW s else rulePut r n (val &&& ruleMask n) s

/-- RULE_ARM: a write of w0 with ARM = 1. -/
def execRuleArm (src : Src) (r : RuleNo) (val : Word) (s : State) : Host.Outcome State Fault Refusal :=
  actWrite src (ra 0xA (ruleOfs r.toNat 0)) (val ||| 0x8000) s (ruleW0Write r.toNat (val ||| 0x8000))

/-- RULE_DISARM: a write of w0 with ARM = 0. -/
def execRuleDisarm (src : Src) (r : RuleNo) (val : Word) (s : State) : Host.Outcome State Fault Refusal :=
  actWrite src (ra 0xA (ruleOfs r.toNat 0)) (val &&& 0x7FFF) s (ruleW0Write r.toNat (val &&& 0x7FFF))

/-- The words written take effect, all at once (R220): a rule armed is in force; a level condition already true trips it,
stamped with the time of arming, or cancels an accepted release (R221); a follow-mode action whose new condition is false
ends. -/
def ruleEffect (r : Nat) (s : State) : State :=
  if !(rule r s).changed then s
  else
    let s1 := modRule r (fun x => { x with
      changed := false, inForce := bit (ruleW r 0 s) 15, w := (span 0 5).map fun n => ruleW r n s }) s
    if !(rule r s1).inForce then s1
    else if levelCond (rule r s1).w s1 then ruleCame r (16 * s.ft.dtb) s1
    else ruleFalse r (modRule r (fun x => { x with seen := none }) s1)

/-- RULE_WRITE_EFFECT. -/
def execRuleWriteEffect (r : RuleNo) (s : State) : Host.Outcome State Fault Refusal := act s (ruleEffect r.toNat)

/-- A write of 1 to HELD requests release (R221). -/
def ruleRelease (r : Nat) (s : State) : State :=
  let x := rule r s
  if !ruleHeld x then s
  else if ruleCond r s then reqErr s
  else modRule r (fun y => { y with relReq := true }) s

/-- RULE_RELEASE_REQUEST. -/
def execRuleReleaseRequest (_src : Src) (r : RuleNo) (s : State) : Host.Outcome State Fault Refusal :=
  act s (ruleRelease r.toNat)

/-- An accepted release takes effect, or is cancelled by a condition that has become true since (R221); a rule whose parity
error stands stays tripped (R223). -/
def ruleReleased (r : Nat) (s : State) : State :=
  if !(rule r s).relReq then s
  else if ruleCond r s then reqErr (modRule r (fun x => { x with relReq := false, seen := none }) s)
  else modRule r (fun x => { x with relReq := false, tripped := x.parity, stuck := x.parity }) s

/-- RULE_RELEASE_EFFECT. -/
def execRuleReleaseEffect (r : RuleNo) (s : State) : Host.Outcome State Fault Refusal := act s (ruleReleased r.toNat)

/-- DMP_CTL.LOCK (R222). -/
def dmpCtlWrite (val : Word) (s : State) : State := if bit val 0 then setRgBit 0xA 0 0 true s else s

/-- DAMPER_LOCK. -/
def execDamperLock (src : Src) (s : State) : Host.Outcome State Fault Refusal :=
  actWrite src (ra 0xA 0) 1 s (dmpCtlWrite 1)

/-- A write of DMP_FENDER word n (R222, R364). -/
def fenderWrite (n : Nat) (val : Word) (s : State) : State :=
  if dmpLocked s then lockW s else setRg 0xA (0x400 + n) val s

/-- The parity of a rule fails (R223): PARERR, DMP_PAR, and an armed rule is treated as tripped in latch mode, in force or
about to be. -/
def ruleParity (r : Nat) (s : State) : State :=
  let s1 := raise 0xA 1 0 (setRgBit 0xA 1 4 true s)
  if !(rule r s).inForce && !bit (ruleW r 0 s) 15 then s1
  else
    let s2 := modRule r (fun x => { x with parity := true, stuck := true, tripped := true, relReq := false }) s1
    if fld (nth (rule r s).w 0) 11 10 = 2 then safeEnter 2 (some r) s2 else s2

/-- RULE_PARITY_ERROR. -/
def execRuleParityError (r : RuleNo) (s : State) : Host.Outcome State Fault Refusal :=
  actDamper s (ruleParity r.toNat)

/-! ### Safe state (R224 to R226, R344) -/

/-- SAFE_N has been low for 16 ns (R224): safe state; before the timebase has locked it is entered at the lock. -/
def safeLow (s : State) : State :=
  let s1 := { s with pwr := { s.pwr with safeN := false } }
  if damperUp s1 then safeEnter 1 none s1 else s1

/-- SAFE_N_ASSERTED. -/
def execSafeNAsserted (s : State) : Host.Outcome State Fault Refusal := actAlways s safeLow

/-- SAFE_N_RELEASE: SAFE_N is high; safe state stays (R225). -/
def execSafeNRelease (s : State) : Host.Outcome State Fault Refusal :=
  actAlways s fun t => { t with pwr := { t.pwr with safeN := true } }

/-- The timebase is lost (R226): safe state with SCAUSE 4, TBLOSS, FT_PLL. -/
def timebaseLost (s : State) : State :=
  if !up s then s
  else
    let s1 := safeEnter 4 none s
    raise 0 0 0 { s1 with pwr := { s1.pwr with pll := false, tbLost := true } }

/-- TIMEBASE_LOSS. -/
def execTimebaseLoss (s : State) : Host.Outcome State Fault Refusal := actAlways s timebaseLost

/-- A rule with ACTION 2 is still tripped. -/
def safeRuleOn (s : State) : Bool := s.rules.any fun kr => kr.2.tripped && fld (nth kr.2.w 0) 11 10 == 2

/-- A write of SAFE_CLEAR (R225, R344): refused, without effect, or the end of safe state. -/
def safeClear (val : Word) (s : State) : State :=
  if val ≠ 1 then fcBadw s
  else if !s.safe.on then s
  else if !s.pwr.safeN || safeRuleOn s || s.pwr.tbLost then setRgBit 6 1 5 true s
  else
    let s1 := forAll ((s.sch.filter fun kx => hasProgram kx.2.st).map fun kx => kx.1) endByReset s
    let s2 := forAll ((s1.chans.filter fun kc => chBusy kc.2).map fun kc => kc.1) chStopped s1
    let s3 := sootAdd (wd s2.safe.cause) 0x600A false s2
    forAll (s3.stk.map fun kx => kx.1) (fun k => addDue (.resched k)) { s3 with safe := {} }

/-- SAFE_CLEAR. -/
def execSafeClear (src : Src) (val : Word) (s : State) : Host.Outcome State Fault Refusal :=
  actWrite src (ra 6 4) val s (safeClear val)

/-- DMP_STAT as read. -/
def dmpStat (s : State) : Word :=
  wd (b2n s.pwr.tbLost * 32768 + b2n s.safe.on * 16384 + b2n (!s.pwr.safeN) * 8192 + s.safe.cause * 1024) |||
    (rg 0xA 1 s &&& 0xFE)

/-- DMP_SRULE as read. -/
def dmpSrule (s : State) : Word := match s.safe.rule with | some r => wd (0x8000 + r) | none => 0

/-- DMP_TRIPMAP word n as read. -/
def tripMap (n : Nat) (s : State) : Word :=
  (span 0 16).foldl (fun w k => setBit w (15 - k) (rule (16 * n + k) s).tripped) 0

end Sys2Proof.Machine
end

