-- ==== Sys2Proof/Machine/MemRows.lean ====
section
/-! DEFINITION. The memories' own commands (R233 to R242): correction write-back, the patrol, late answers, retraining and
refresh of GDDR6. -/
namespace Sys2Proof.Machine
open Sys2Proof

/-- A word address of SRAM that is mapped (R228, R340). -/
def sramMapped (a : Nat) (s : State) : Bool :=
  match place none none a s with | .mem k => isSram k | _ => false

/-- A corrected word is written back, unless a store has come first (R234). -/
def sramWriteBack (a : Nat) (s : State) : State :=
  if sramMapped a s && mget 0 a s.marks == 1 then { s with marks := merase a s.marks } else s

/-- SRAM_CORRECTION_WRITEBACK. -/
def execSramCorrectionWriteback (addr : W32) (s : State) : Host.Outcome State Fault Refusal := act s (sramWriteBack addr.toNat)

/-- The patrol reads a word where SCRUB_EN is 1 (R234, R235); `err` is what it finds. -/
def patrol (a err : Nat) (s : State) : State :=
  if sramMapped a s && bit (rg (sramCtl a).1 (sramCtl a).2 s) 0 then (memRead a (upset false a (min err 2) s).2).2.2 else s

/-- SCRUB_PATROL. -/
def execScrubPatrol (addr : W32) (err : BitVec 2) (s : State) : Host.Outcome State Fault Refusal :=
  act s (patrol addr.toNat err.toNat)

/-- FABRIC_LATE_ANSWER: the answer is discarded and counted (R236). -/
def execFabricLateAnswer (h : HearthNo) (s : State) : Host.Outcome State Fault Refusal :=
  act s (count (bHrt h.toNat) 0x816)

/-- One device is retrained in the ash slot, RETRAIN frames after the last step (R238): DEV_OK, and GD_TRAIN on a
failure. -/
def retrainStep (d : Nat) (ok : Bool) (s : State) : State :=
  let n := fld (rg 9 2 s) 15 8
  if !s.ft.inAsh || n = 0 || s.ft.framesSinceTrain < n || gdRet d s then s
  else
    let s1 := setRgBit 9 1 (8 + d) ok (modFt (fun f => { f with framesSinceTrain := 0 }) s)
    if ok then s1 else raise 9 2 (wd d) s1

/-- GDDR6_RETRAIN_STEP. -/
def execGddr6RetrainStep (dev : BitVec 2) (ok : Bool) (s : State) : Host.Outcome State Fault Refusal :=
  act s (retrainStep dev.toNat ok)

/-- GDDR6_REFRESH: the contents stay as they are (R241). -/
def execGddr6Refresh (s : State) : Host.Outcome State Fault Refusal := act s id

/-- A write of GD_CTL: after READY a write of ECC_EN is discarded and sets LATEW (R240). -/
def gdCtlWrite (val : Word) (s : State) : State :=
  let r := wrFlds [rw 2 2, rng 1 0 0 1] (rg 9 0 s) val
  let s1 := setRg 9 0 r.1 s
  let s2 := if gdReady s then doIf (bit val 4 != eccOn s) (setRgBit 9 1 6 true) s1 else setRgBit 9 0 4 (bit val 4) s1
  doIf r.2 (setRgBit 9 1 7 true) s2

end Sys2Proof.Machine
end

