-- ==== Sys2Proof/Machine/Sequencer.lean ====
section
/-! DEFINITION. The grate sequencers (R203 to R209): the kick, the store, one meaning for each microoperation, and the end of a
microword that holds. A command carries the microword the sequencer reaches. -/
namespace Sys2Proof.Machine
open Sys2Proof

/-! ### State of a sequencer -/

/-- K register n. -/
def seqK (g n : Nat) (s : State) : Word := rg (bGrt g) (0x310 + n) s
/-- Write K register n. -/
def setK (g n : Nat) (v : Word) (s : State) : State := setRg (bGrt g) (0x310 + n) v s
/-- Flag i of the sequencer. -/
def seqF (g i : Nat) (s : State) : Bool := bit (grate g s).flags i
/-- A byte with bit i set or cleared. -/
def setBit8 (b : Byte) (i : Nat) (v : Bool) : Byte :=
  if v then b ||| BitVec.ofNat 8 (1 <<< i) else b &&& ~~~(BitVec.ofNat 8 (1 <<< i))
/-- Write flag i: 7 Z, 6 C, 5 TO, 4 EOP, 3 ODD, 2 EMP, 1 FE, 0 DRP. -/
def seqSetF (g i : Nat) (v : Bool) (s : State) : State := modGrate g (fun x => { x with flags := setBit8 x.flags i v }) s
/-- The filtered levels of the grate's pins. -/
def seqLevels (g : Nat) (s : State) : Word :=
  (span 0 16).foldl (fun w p => setBit w p (pin (16 * g + p) s).lvl) 0
/-- Bit time in gc. -/
def seqBt (g : Nat) (s : State) : Nat := rgs (bGrt g) 0x306 2 s
/-- SQ_SHCFG. -/
def shCfg (g : Nat) (s : State) : Word := rg (bGrt g) 0x308 s

/-! ### Kick, stop, store (R204, R205, R208) -/

/-- The sequencer is kicked by a source; before boot is over it stays halted (R359). -/
def seqKick (src : Src) (g : Nat) (entry : Byte) (s : State) : State :=
  if !booted s then s
  else if (grate g s).run then count (bGrt g) 0x40A (setRgBit (bGrt g) 0x303 6 true s)
  else modGrate g (fun x => { x with
    run := true, pc := entry, npc := entry, stack := [], hold := none, posted := false, tgtOver := false
    tgt := match src with | .stoker sub => some sub.toNat | _ => none }) s

/-- SEQ_KICK. -/
def execSeqKick (src : Src) (g : GrateNo) (entry : Byte) (s : State) : Host.Outcome State Fault Refusal :=
  act s (seqKick src g.toNat entry)

/-- SEQ_STOP. -/
def execSeqStop (_src : Src) (g : GrateNo) (s : State) : Host.Outcome State Fault Refusal := act s (seqStop g.toNat)

/-- A write to word `ofs` of the store: discarded while the sequencer runs (R205). -/
def uwWrite (g ofs : Nat) (val : Word) (s : State) : State :=
  if (grate g s).run then setRgBit (bGrt g) 1 5 true s
  else if ofs % 4 = 3 then s
  else setRg (bGrt g) (0x1000 + ofs) val s

/-- SQ_UW_WRITE. -/
def execSqUwWrite (src : Src) (g : GrateNo) (ofs : BitVec 10) (val : Word) (s : State) : Host.Outcome State Fault Refusal :=
  actWrite src (ra (bGrt g.toNat) (0x1000 + ofs.toNat)) val s (uwWrite g.toNat ofs.toNat val)

/-- SQ_BT0_WRITE: staged (R391). -/
def execSqBt0Write (src : Src) (g : GrateNo) (val : Word) (s : State) : Host.Outcome State Fault Refusal :=
  actWrite src (ra (bGrt g.toNat) 0x306) val s (stageHigh src (ra (bGrt g.toNat) 0x306) val)

/-- A write of SQ_BT1 commits the bit time, 20 to 2^31 − 1 gc (R208, R391). -/
def bt1Write (src : Src) (g : Nat) (val : Word) (s : State) : State :=
  let r := stageTake src (ra (bGrt g) 0x306) (rg (bGrt g) 0x306 s) s
  let n := valOf [r.1, val]
  if 20 ≤ n && n < 2 ^ 31 then setRg (bGrt g) 0x306 r.1 (setRg (bGrt g) 0x307 val r.2)
  else setRgBit (bGrt g) 1 7 true r.2

/-- SQ_BT1_WRITE. -/
def execSqBt1Write (src : Src) (g : GrateNo) (val : Word) (s : State) : Host.Outcome State Fault Refusal :=
  actWrite src (ra (bGrt g.toNat) 0x307) val s (bt1Write src g.toNat val)

/-! ### Halts and posts (R205, R206, R209) -/

/-- A DSTAT goes to the post target, or is discarded and counted (R209). -/
def seqPost (g : Nat) (d : Byte) (pf : Bool) (s : State) : State :=
  let x := grate g s
  match x.tgt with
  | none => count (bGrt g) 0x408 s
  | some sub =>
    let s1 := modGrate g (fun y => { y with posted := true }) s
    if x.tgtOver then count (bGrt g) 0x408 s1 else postTo sub d pf s1

/-- The sequencer halts at its microword with a bit of SQ_STAT. -/
def seqHaltAt (g b : Nat) (s : State) : State :=
  setRgBit (bGrt g) 0x303 b true (modGrate g (fun x => { x with run := false, hold := none }) s)

/-- A halt on UPAR, ILL or STK: a target that has had no post gets CHECK marked as a path fault (R209). -/
def seqFail (g b : Nat) (s : State) : State :=
  let s1 := seqHaltAt g b s
  if (grate g s).tgt.isSome && !(grate g s).posted then seqPost g 0x04 true s1 else s1

/-- A reserved microword is reached (R206). -/
def seqIll (g : Nat) (s : State) : State := raise (bGrt g) 4 0 (seqFail g 4 s)

/-- A microword fails its parity (R205): the grate reports a path fault; the post target has it from R209. -/
def seqUpar (g : Nat) (s : State) : State :=
  let told := if (grate g s).posted || (grate g s).tgtOver then none else (grate g s).tgt
  let s1 := raise (bGrt g) 3 0 (seqFail g 5 s)
  forAll ((pathSubs s1).filter fun sub => hasProgram (sch sub s1).st && usesRes sub false g s1 && some sub != told)
    (fun sub => addDue (.pathFault sub)) s1

/-! ### Microwords (R205, R206) -/

/-- The fields an OP names: pin bits, K[KA], K[KB], CC, S, T, and the bits of IMM. -/
structure Names where
  p : BitVec 4 := 0
  ka : Bool := false
  kb : Bool := false
  cc : Bool := false
  s : Bool := false
  t : Bool := false
  imm : Word := 0
deriving DecidableEq, Repr

/-- Every field the OP does not name is 0 (R205). -/
def namesOk (n : Names) (u : Micro) : Bool :=
  (u.p &&& ~~~n.p) == 0 && (n.ka || u.ka == 0) && (n.kb || u.kb == 0) && (n.cc || u.cc == 0) && (n.s || u.s == 0) &&
    (n.t || u.t == 0) && (u.imm &&& ~~~n.imm) == 0

/-- The 48 bits of a microword (R205). -/
def microBits (op : BitVec 6) (u : Micro) : BitVec 48 :=
  (op ++ u.p ++ u.ka ++ u.kb ++ u.cc ++ u.s ++ u.t ++ u.imm).setWidth 48

/-- The microword the store holds at an address (R205). -/
def microAt (g : Nat) (a : Byte) (s : State) : BitVec 48 :=
  let w (i : Nat) : Word := rg (bGrt g) (0x1000 + 4 * a.toNat + i) s
  (w 0 ++ w 1 ++ w 2).setWidth 48

/-- The frame of a microoperation: the sequencer runs, holds at no other word and reaches this microword, which its store
holds at the next address; a bad parity, a reserved OP in the store, or a reserved field or value halts it; else the next
address is the one after, and f is the action. A command with a microword that the sequencer does not reach changes
nothing. -/
def micro (g : Nat) (op : BitVec 6) (n : Names) (valid : Micro → Bool) (u : Micro) (f : State → State) (s : State) : State :=
  let x := grate g s
  let w := microAt g x.npc s
  if !x.run || x.hold.isSome || (w != microBits op u && decide (w.toNat / 2 ^ 42 ≤ 0x20)) then s
  else
    let s1 := modGrate g (fun y => { y with pc := y.npc }) s
    if !u.parityOk then seqUpar g s1
    else if w != microBits op u || !namesOk n u || !valid u then seqIll g s1
    else f (modGrate g (fun y => { y with npc := y.pc + 1 }) s1)

/-- No value of a field is reserved. -/
def anyU (_ : Micro) : Bool := true

/-- The microword holds. -/
def seqHold (g : Nat) (h : Hold) (s : State) : State := modGrate g (fun x => { x with hold := some h }) s

/-- Result v into K[KA], with Z. -/
def putKz (g : Nat) (ka : BitVec 3) (v : Word) (s : State) : State := seqSetF g 7 (v == 0) (setK g ka.toNat v s)

/-- SEQ_NOP. -/
def execSeqNop (g : GrateNo) (u : Micro) (s : State) : Host.Outcome State Fault Refusal :=
  act s (micro g.toNat 0x00 {} anyU u id)

/-- An act on a pin of the grate now. -/
def seqAct (g p a : Nat) (s : State) : State := pinAct (16 * g + p) a (16 * s.ft.dtb) 0 s

/-- DRV on a direction pin, which DIRSEQ of pin 0 allows (R195). -/
def seqDir (g k a : Nat) (s : State) : State :=
  if bit (pinCfg (16 * g) s) 6 && a < 2 then
    modGrate g (fun x => { x with dirLvl := (x.dirLvl &&& ~~~(BitVec.ofNat 4 (1 <<< k))) ||| BitVec.ofNat 4 (a <<< k) }) s
  else s

/-- DRV. -/
def doDrv (g : Nat) (u : Micro) (s : State) : State :=
  if bit u.imm 4 then seqDir g (fld u.p 1 0) (fld u.imm 1 0) s else seqAct g u.p.toNat (fld u.imm 1 0) s
/-- DRV. -/
def execDrv (g : GrateNo) (u : Micro) (s : State) : Host.Outcome State Fault Refusal :=
  act s (micro g.toNat 0x01 { p := if bit u.imm 4 then 3 else 15, imm := 0x13 } (fun v => fld v.imm 1 0 != 3) u (doDrv g.toNat u))

/-- DRVM. -/
def doDrvm (g : Nat) (u : Micro) (s : State) : State :=
  forAll ((span 0 16).filter fun p => bit u.imm p) (fun p => seqAct g p (b2n (bit (seqK g u.ka.toNat s) p))) s
/-- DRVM. -/
def execDrvm (g : GrateNo) (u : Micro) (s : State) : Host.Outcome State Fault Refusal :=
  act s (micro g.toNat 0x02 { ka := true, imm := 0xFFFF } anyU u (doDrvm g.toNat u))

/-- OEM: the output state keeps its level. -/
def doOem (g : Nat) (u : Micro) (s : State) : State :=
  forAll ((span 0 16).filter fun p => bit u.imm p) (fun p t =>
    seqAct g p (if bit (seqK g u.ka.toNat s) p then b2n (pin (16 * g + p) t).out else 2) t) s
/-- OEM. -/
def execOem (g : GrateNo) (u : Micro) (s : State) : Host.Outcome State Fault Refusal :=
  act s (micro g.toNat 0x03 { ka := true, imm := 0xFFFF } anyU u (doOem g.toNat u))

/-- SMP. -/
def execSmp (g : GrateNo) (u : Micro) (s : State) : Host.Outcome State Fault Refusal :=
  act s (micro g.toNat 0x04 { ka := true } anyU u fun t => putKz g.toNat u.ka (seqLevels g.toNat t) t)

/-- SEQ_WAIT. -/
def execSeqWait (g : GrateNo) (u : Micro) (s : State) : Host.Outcome State Fault Refusal :=
  act s (micro g.toNat 0x05 { s := true, imm := 0xFFFF } (fun v => v.imm != 0) u (seqHold g.toNat .wait))

/-- WEDGE. -/
def execWedge (g : GrateNo) (u : Micro) (s : State) : Host.Outcome State Fault Refusal :=
  act s (micro g.toNat 0x06 { p := 15, kb := true, s := true, imm := 0xFFFF } (fun v => v.kb.toNat < 3) u
    (seqHold g.toNat (.wedge u.p u.kb (u.imm != 0) false)))

/-- WLVL: met at once, or the microword holds. -/
def doWlvl (g : Nat) (u : Micro) (s : State) : State :=
  let mask := seqK g u.kb.toNat s
  let val := seqK g u.ka.toNat s
  if seqLevels g s &&& mask = val then seqSetF g 5 false s else seqHold g (.wlvl mask val (u.imm != 0) false) s
/-- WLVL. -/
def execWlvl (g : GrateNo) (u : Micro) (s : State) : Host.Outcome State Fault Refusal :=
  act s (micro g.toNat 0x07 { ka := true, kb := true, s := true, imm := 0xFFFF } anyU u (doWlvl g.toNat u))

/-- LDI. -/
def execLdi (g : GrateNo) (u : Micro) (s : State) : Host.Outcome State Fault Refusal :=
  act s (micro g.toNat 0x08 { ka := true, imm := 0xFFFF } anyU u (setK g.toNat u.ka.toNat u.imm))

/-- SEQ_MOV. -/
def execSeqMov (g : GrateNo) (u : Micro) (s : State) : Host.Outcome State Fault Refusal :=
  act s (micro g.toNat 0x09 { ka := true, kb := true } anyU u fun t => setK g.toNat u.ka.toNat (seqK g.toNat u.kb.toNat t) t)

/-- ADDI: C is the carry. -/
def execAddi (g : GrateNo) (u : Micro) (s : State) : Host.Outcome State Fault Refusal :=
  act s (micro g.toNat 0x0A { ka := true, imm := 0xFFFF } anyU u fun t =>
    let k := seqK g.toNat u.ka.toNat t
    seqSetF g.toNat 6 (decide (65536 ≤ k.toNat + u.imm.toNat)) (putKz g.toNat u.ka (k + u.imm) t))

/-- K[KA] := K[KA] op IMM, with Z. -/
def doLogic (g : Nat) (u : Micro) (op : Word → Word → Word) (s : State) : State :=
  putKz g u.ka (op (seqK g u.ka.toNat s) u.imm) s
/-- ANDI. -/
def execAndi (g : GrateNo) (u : Micro) (s : State) : Host.Outcome State Fault Refusal :=
  act s (micro g.toNat 0x0B { ka := true, imm := 0xFFFF } anyU u (doLogic g.toNat u (· &&& ·)))
/-- ORI. -/
def execOri (g : GrateNo) (u : Micro) (s : State) : Host.Outcome State Fault Refusal :=
  act s (micro g.toNat 0x0C { ka := true, imm := 0xFFFF } anyU u (doLogic g.toNat u (· ||| ·)))
/-- XORI. -/
def execXori (g : GrateNo) (u : Micro) (s : State) : Host.Outcome State Fault Refusal :=
  act s (micro g.toNat 0x0D { ka := true, imm := 0xFFFF } anyU u (doLogic g.toNat u (· ^^^ ·)))

/-- CMPI: C is the borrow. -/
def execCmpi (g : GrateNo) (u : Micro) (s : State) : Host.Outcome State Fault Refusal :=
  act s (micro g.toNat 0x0E { ka := true, imm := 0xFFFF } anyU u fun t =>
    let k := seqK g.toNat u.ka.toNat t
    seqSetF g.toNat 6 (decide (k.toNat < u.imm.toNat)) (seqSetF g.toNat 7 (k == u.imm) t))

/-- SHK. -/
def execShk (g : GrateNo) (u : Micro) (s : State) : Host.Outcome State Fault Refusal :=
  act s (micro g.toNat 0x0F { ka := true, imm := 0x800F } anyU u fun t =>
    let k := seqK g.toNat u.ka.toNat t
    let n := fld u.imm 3 0
    putKz g.toNat u.ka (if bit u.imm 15 then k >>> n else k <<< n) t)

/-! ### FIFOs (R199, R201) -/

/-- Some outbound FIFO's drop bit is set. -/
def anyDrop (g : Nat) (s : State) : Bool := (span (8 * g + 4) 4).any fun k => (fifo k s).dropBit

/-- The pop of OUT f: the word to K[KA] with EOP and ODD, or EMP and perhaps an underrun; DRP, and the FIFO's drop bit
goes. -/
def seqPop (g f : Nat) (ka : BitVec 3) (s : State) : State :=
  let k := 8 * g + 4 + f
  let s1 := modFifo k (fun x => { x with dropBit := false }) (seqSetF g 0 (anyDrop g s) s)
  match fifoHead k s with
  | some w => seqSetF g 2 false (seqSetF g 3 w.odd (seqSetF g 4 w.eop (setK g ka.toNat w.w (fifoTake k s1))))
  | none => seqSetF g 2 true (if (fifo k s).mid then fifoXrun k s1 else s1)

/-- POP: with W = 1 it holds while the FIFO is empty. -/
def doPop (g : Nat) (u : Micro) (s : State) : State :=
  let f := fld u.p 1 0
  if bit u.imm 0 && (fifoHead (8 * g + 4 + f) s).isNone then seqHold g (.pop (BitVec.ofNat 2 f) u.ka) s
  else seqPop g f u.ka s
/-- SEQ_POP. -/
def execSeqPop (g : GrateNo) (u : Micro) (s : State) : Host.Outcome State Fault Refusal :=
  act s (micro g.toNat 0x10 { p := 3, ka := true, imm := 1 } anyU u (doPop g.toNat u))

/-- PUSH into IN f: a full FIFO discards the word. -/
def doPush (g : Nat) (u : Micro) (s : State) : State :=
  let k := 8 * g + fld u.p 1 0
  let w : FWord := { w := seqK g u.ka.toNat s, eop := bit u.imm 1, odd := bit u.imm 0 }
  if !(fifo k s).dropping && fifoFree k s = 0 then fifoXrun k s else fifoPut k w s
/-- SEQ_PUSH. -/
def execSeqPush (g : GrateNo) (u : Micro) (s : State) : Host.Outcome State Fault Refusal :=
  act s (micro g.toNat 0x11 { p := 3, ka := true, imm := 3 } anyU u (doPush g.toNat u))

/-! ### The shift unit (R208) -/

/-- The parity bit of data bits under PAR: 1 even, 2 odd, 3 mark, 4 space. -/
def parBit (par : Nat) (ds : List Bool) : Bool :=
  let odd := ds.foldl (· != ·) false
  if par = 1 then odd else if par = 2 then !odd else par == 3

/-- The bits of a character frame under SQ_SHCFG, before INV: start, data, parity, stop (R208). -/
def charFrame (cfg : Word) (v : Word) : List Bool :=
  let ds := (span 0 (fld cfg 3 0)).map fun i => bit v i
  let par := if fld cfg 7 5 = 0 then [] else [parBit (fld cfg 7 5) ds]
  false :: ((if bit cfg 9 then ds.reverse else ds) ++ par ++ (if bit cfg 8 then [true, true] else [true]))

/-- The character CHO sends: IMM[0] picks the byte of K[KA], and a ninth bit comes from the other one (R206). -/
def choChar (k : Word) (low : Bool) : Word :=
  if low then wd (b2n (bit k 8) * 256 + k.toNat % 256) else wd (b2n (bit k 0) * 256 + k.toNat / 256)

/-- A character or shift begins on a pin: its bits are driven for BT gc each, the first at once. -/
def seqSend (g p : Nat) (frame : List Bool) (echo : Option Samp) (s : State) : State :=
  seqHold g (.cho (BitVec.ofNat 4 p) frame s.ft.dtb (seqBt g s) echo) (seqAct g p (b2n (frame.headD true)) s)

/-- CHO: the frame with INV, and with ECHO a sample of pin ECHOP at the middle of each bit. -/
def doCho (g : Nat) (u : Micro) (s : State) : State :=
  let cfg := shCfg g s
  let bt := seqBt g s
  let frame := (charFrame cfg (choChar (seqK g u.ka.toNat s) (bit u.imm 0))).map fun b => b != bit cfg 10
  let echo : Option Samp := if bit cfg 11 then
      some { pin := BitVec.ofNat 4 (fld cfg 15 12), next := 16 * (s.ft.dtb + bt / 2), step := 16 * bt, left := frame.length }
    else none
  seqSend g u.p.toNat frame echo s
/-- CHO. -/
def execCho (g : GrateNo) (u : Micro) (s : State) : Host.Outcome State Fault Refusal :=
  act s (micro g.toNat 0x12 { p := 15, ka := true, imm := 1 } anyU u (doCho g.toNat u))

/-- CHI: it waits for a falling edge with the settings as they are now. -/
def doChi (g : Nat) (u : Micro) (s : State) : State :=
  seqHold g (.chi u.ka u.p (u.imm != 0) (shCfg g s) (seqBt g s) none) s
/-- CHI. -/
def execChi (g : GrateNo) (u : Micro) (s : State) : Host.Outcome State Fault Refusal :=
  act s (micro g.toNat 0x13 { p := 15, ka := true, s := true, imm := 0xFFFF } anyU u (doChi g.toNat u))

/-- SHO: bit n − 1 of K[KA] first, bit 0 last. -/
def doSho (g : Nat) (u : Micro) (s : State) : State :=
  let k := seqK g u.ka.toNat s
  seqSend g u.p.toNat ((span 0 (fld u.imm 3 0 + 1)).reverse.map fun i => bit k i != bit (shCfg g s) 10) none s
/-- SHO. -/
def execSho (g : GrateNo) (u : Micro) (s : State) : Host.Outcome State Fault Refusal :=
  act s (micro g.toNat 0x14 { p := 15, ka := true, imm := 0x000F } anyU u (doSho g.toNat u))

/-- SHI: n samples at BT intervals, the first at once. -/
def doShi (g : Nat) (u : Micro) (s : State) : State :=
  let n := fld u.imm 3 0 + 1
  seqHold g (.shi u.ka n (bit (shCfg g s) 10)
    { pin := u.p, next := 16 * s.ft.dtb, step := 16 * seqBt g s, left := n }) s
/-- SHI. -/
def execShi (g : GrateNo) (u : Micro) (s : State) : Host.Outcome State Fault Refusal :=
  act s (micro g.toNat 0x15 { p := 15, ka := true, imm := 0x000F } anyU u (doShi g.toNat u))

/-! ### Branches (R206, R207) -/

/-- Condition CC holds (R207). -/
def seqCond (g : Nat) (u : Micro) (s : State) : Bool :=
  match u.cc.toNat with
  | 0 => true
  | 1 => seqF g 7 s
  | 2 => !seqF g 7 s
  | 3 => seqF g 6 s
  | 4 => !seqF g 6 s
  | 5 => seqF g 5 s
  | 6 => !seqF g 5 s
  | 7 => seqF g 4 s
  | 8 => !seqF g 4 s
  | 9 => seqF g 3 s
  | 10 => seqF g 1 s
  | 11 => seqF g 2 s
  | 12 => (pin (16 * g + u.p.toNat) s).lvl
  | 13 => !(pin (16 * g + u.p.toNat) s).lvl
  | 14 => seqF g 0 s
  | _ => false

/-- The fields BR and CALL name: P only with conditions 0xC and 0xD. -/
def brNames (u : Micro) : Names := { p := if u.cc = 12 || u.cc = 13 then 15 else 0, cc := true, t := true }
/-- Condition 0xF is reserved. -/
def ccOk (u : Micro) : Bool := u.cc != 15
/-- The next microword is t. -/
def seqGo (g : Nat) (t : Byte) (s : State) : State := modGrate g (fun x => { x with npc := t }) s

/-- BR. -/
def execBr (g : GrateNo) (u : Micro) (s : State) : Host.Outcome State Fault Refusal :=
  act s (micro g.toNat 0x16 (brNames u) ccOk u fun t => if seqCond g.toNat u t then seqGo g.toNat u.t t else t)

/-- CALL: a fifth call halts with STK. -/
def seqCallTo (g : Nat) (u : Micro) (s : State) : State :=
  if !seqCond g u s then s
  else if 4 ≤ (grate g s).stack.length then seqFail g 3 s
  else seqGo g u.t (modGrate g (fun x => { x with stack := (x.pc + 1) :: x.stack }) s)
/-- SEQ_CALL. -/
def execSeqCall (g : GrateNo) (u : Micro) (s : State) : Host.Outcome State Fault Refusal :=
  act s (micro g.toNat 0x17 (brNames u) ccOk u (seqCallTo g.toNat u))

/-- RET: an empty stack halts with STK. -/
def seqRetTo (g : Nat) (s : State) : State :=
  match (grate g s).stack with
  | [] => seqFail g 3 s
  | a :: r => seqGo g a (modGrate g (fun x => { x with stack := r }) s)
/-- SEQ_RET. -/
def execSeqRet (g : GrateNo) (u : Micro) (s : State) : Host.Outcome State Fault Refusal :=
  act s (micro g.toNat 0x18 {} anyU u (seqRetTo g.toNat))

/-- DJNZ. -/
def doDjnz (g : Nat) (u : Micro) (s : State) : State :=
  let v := seqK g u.ka.toNat s - 1
  let s1 := putKz g u.ka v s
  if v = 0 then s1 else seqGo g u.t s1
/-- DJNZ. -/
def execDjnz (g : GrateNo) (u : Micro) (s : State) : Host.Outcome State Fault Refusal :=
  act s (micro g.toNat 0x19 { ka := true, t := true } anyU u (doDjnz g.toNat u))

/-! ### Posts, events, CRC, fire queue, ticks, flags, halt -/

/-- SEQ_POST. -/
def execSeqPost (g : GrateNo) (u : Micro) (s : State) : Host.Outcome State Fault Refusal :=
  act s (micro g.toNat 0x1A { ka := true, imm := 0x1FF } anyU u fun t =>
    seqPost g.toNat (if bit u.imm 8 then (seqK g.toNat u.ka.toNat t).setWidth 8 else u.imm.setWidth 8) false t)

/-- EVT. -/
def execEvt (g : GrateNo) (u : Micro) (s : State) : Host.Outcome State Fault Refusal :=
  act s (micro g.toNat 0x1B { imm := 3 } anyU u (grateEdge g.toNat (fld u.imm 1 0)))

/-- One step of the CRC unit: a bit out at the top, the polynomial in (R206, register SQ_CRCP). -/
def crcBit (poly c : Word) : Word := if bit c 15 then (c <<< 1) ^^^ poly else c <<< 1
/-- A byte through the CRC unit, most significant bit first. -/
def crcByte (poly c : Word) (b : Byte) : Word :=
  (span 0 8).foldl (fun x _ => crcBit poly x) (c ^^^ (b.setWidth 16 <<< 8))
/-- CRC: high byte, low byte, or both, high first. -/
def doCrc (g : Nat) (u : Micro) (s : State) : State :=
  let k := seqK g u.ka.toNat s
  let hi : Byte := (k >>> 8).setWidth 8
  let lo : Byte := k.setWidth 8
  let bs := if fld u.imm 1 0 = 0 then [hi] else if fld u.imm 1 0 = 1 then [lo] else [hi, lo]
  let c := bs.foldl (crcByte (rg (bGrt g) 0x309 s)) (rg (bGrt g) 0x30A s)
  seqSetF g 7 (c == 0) (setRg (bGrt g) 0x30A c s)
/-- CRC. -/
def execCrc (g : GrateNo) (u : Micro) (s : State) : Host.Outcome State Fault Refusal :=
  act s (micro g.toNat 0x1C { ka := true, imm := 3 } (fun v => fld v.imm 1 0 != 3) u (doCrc g.toNat u))

/-- Entries of a pin's fire queue and writes on their way (R193). -/
def fqCount (p : Nat) (s : State) : Nat := (pin p s).fq.length + (pin p s).flying.length
/-- A sequencer's fire-queue write leaves for its pin (R191). -/
def fqwSend (p t : Nat) (a : BitVec 2) (s : State) : State :=
  modPin p (fun q => { q with flying := q.flying ++ [{ time := t, act := a }] }) s
/-- FQW: the fire time is that of this microword plus K[KA] fine steps; a full queue holds the sequencer. -/
def doFqw (g : Nat) (u : Micro) (s : State) : State :=
  let p := 16 * g + u.p.toNat
  let t := 16 * s.ft.dtb + (seqK g u.ka.toNat s).toNat
  let a : BitVec 2 := u.imm.setWidth 2
  if 32 ≤ fqCount p s then seqHold g (.fqw u.p a t) s else fqwSend p t a s
/-- FQW. -/
def execFqw (g : GrateNo) (u : Micro) (s : State) : Host.Outcome State Fault Refusal :=
  act s (micro g.toNat 0x1D { p := 15, ka := true, imm := 3 } (fun v => fld v.imm 1 0 != 3) u (doFqw g.toNat u))

/-- WTICK. -/
def execWtick (g : GrateNo) (u : Micro) (s : State) : Host.Outcome State Fault Refusal :=
  act s (micro g.toNat 0x1E {} anyU u (seqHold g.toNat .wtick))

/-- CLRF: with bit [0] the four drop bits go as well (R201). -/
def doClrf (g : Nat) (u : Micro) (s : State) : State :=
  let s1 := modGrate g (fun x => { x with flags := x.flags &&& ~~~(u.imm.setWidth 8) }) s
  if bit u.imm 0 then forAll (span (8 * g + 4) 4) (fun k => modFifo k fun x => { x with dropBit := false }) s1 else s1
/-- CLRF. -/
def execClrf (g : GrateNo) (u : Micro) (s : State) : Host.Outcome State Fault Refusal :=
  act s (micro g.toNat 0x1F { imm := 0x00FF } anyU u (doClrf g.toNat u))

/-- SEQ_HALT: SQ_STAT.DONE. -/
def execSeqHalt (g : GrateNo) (u : Micro) (s : State) : Host.Outcome State Fault Refusal :=
  act s (micro g.toNat 0x20 {} anyU u (seqHaltAt g.toNat 2))

/-! ### What a hold sees of its pins (R206, R208) -/

/-- Take so many samples at a level. -/
def Samp.take (x : Samp) (n : Nat) (level : Bool) : Samp :=
  let m := min n x.left
  { x with next := x.next + m * x.step, left := x.left - m, got := x.got ++ List.replicate m level }

/-- The samples that fall before fine-step time t, at the level the pin had until then. -/
def Samp.before (x : Samp) (t : Nat) (level : Bool) : Samp :=
  x.take (if t ≤ x.next then 0 else (t - x.next - 1) / x.step + 1) level

/-- The samples of a CHI have failed to confirm its start bit: the first is at stop level. -/
def badStart (inv : Bool) (x : Samp) : Bool := x.got.head? == some (!inv)

/-- Samples a character takes: the start bit, data, parity and the first stop bit (R208). -/
def chiLen (cfg : Word) : Nat := fld cfg 3 0 + (if fld cfg 7 5 = 0 then 0 else 1) + 2

/-- A falling edge (before INV) of the pin of a CHI at fine-step time t starts its samples. -/
def chiStart (pin : BitVec 4) (cfg : Word) (bt t : Nat) (level : Bool) : Option Samp :=
  if level == bit cfg 10 then
    some { pin := pin, next := t + 16 * (bt / 2), step := 16 * bt, left := chiLen cfg }
  else none

/-- What a hold makes of a level that pin p of its grate takes at fine-step time t, `levels` being the grate's levels with
it (R206, R208): an edge or levels it waits for, or the samples that fell before. -/
def holdSees (p t : Nat) (level : Bool) (levels : Word) (h : Hold) : Hold :=
  match h with
  | .wedge q kind lim met =>
    .wedge q kind lim (met || (q.toNat == p && (kind == 2 || level == (kind == 0))))
  | .wlvl mask val lim met => .wlvl mask val lim (met || levels &&& mask == val)
  | .cho q frame since bt (some x) =>
    .cho q frame since bt (some (if x.pin.toNat = p then x.before t (!level) else x))
  | .chi ka q lim cfg bt samp =>
    if q.toNat ≠ p then h
    else match samp with
      | none => .chi ka q lim cfg bt (chiStart q cfg bt t level)
      | some x =>
        let y := x.before t (!level)
        .chi ka q lim cfg bt (if badStart (bit cfg 10) y then chiStart q cfg bt t level else some y)
  | .shi ka n inv x => if x.pin.toNat = p then .shi ka n inv (x.before t (!level)) else h
  | _ => h

/-- The sequencer of pin p's grate sees an accepted edge. -/
def seqEdge (p t : Nat) (level : Bool) (s : State) : State :=
  match (grate (p / 16) s).hold with
  | none => s
  | some h => modGrate (p / 16) (fun x => { x with hold := some (holdSees (p % 16) t level (seqLevels (p / 16) s) h) }) s

/-- A change of level at the ball of pin p, which has held for so many gc (R186 to R188): a shorter one than FILT + 1 is
only counted; else it is an accepted edge with its stamp for the pin engine, the sequencer and the damper, whose filter copy
works on while the timebase is lost (R226). -/
def pinEdge (p : Nat) (level float : Bool) (stamp : W64) (held : Nat) (s : State) : State :=
  let l := ballLevel p level float s
  let t := edgeStamp p stamp s
  if held ≤ pinFilt p s then
    (if l = (pin p s).lvl then s else doIf (up s) (count (bGrt (p / 16)) 0x406) s)
  else
    let s1 := if up s && l != (pin p s).lvl then seqEdge p t.toNat l (edgeTaken p l t s) else s
    if l = (pin p s).dlvl then s1 else dmpEdge p l t s1

/-- PIN_EDGE_ACCEPTED: what the ball shows, the fine-step time at which the level first crossed with the input delay taken
out, and the gc for which it has held. -/
def execPinEdgeAccepted (pin : DevPin) (ball : BallIn) (stamp : W64) (held : BitVec 9) (s : State) :
    Host.Outcome State Fault Refusal :=
  actDamper s (pinEdge pin.toNat ball.level ball.float stamp held.toNat)

/-! ### The end of a hold (R203, R206, R208) -/

/-- A microword with a time limit ends by its timeout, with TO = 1; one without goes on. -/
def seqTimeout (g : Nat) (limited : Bool) (s : State) : State :=
  if limited then endHold g (seqSetF g 5 true s) else s

/-- A microword with a timeout ends in time: TO = 0. -/
def seqInTime (g : Nat) (s : State) : State := endHold g (seqSetF g 5 false s)

/-- The level of pin p of the grate. -/
def seqLvl (g p : Nat) (s : State) : Bool := (pin (16 * g + p) s).lvl

/-- All samples are in: those still to come find the level of now. -/
def sampDone (g : Nat) (x : Samp) (s : State) : Samp := x.take x.left (seqLvl g x.pin.toNat s)

/-- The value of a run of bits, the first the lowest. -/
def bitsVal (bs : List Bool) : Nat := bs.foldr (fun b n => b2n b + 2 * n) 0

/-- The data bits and the FE of a received character, its samples before INV being the start bit, data, parity and stop
(R208). -/
def chiData (cfg : Word) (bs : List Bool) : Nat × Bool :=
  let n := fld cfg 3 0
  let ds := (bs.drop 1).take n
  let ds := if bit cfg 9 then ds.reverse else ds
  let rest := bs.drop (n + 1)
  let parBad := fld cfg 7 5 != 0 && rest.headD true != parBit (fld cfg 7 5) ds
  (bitsVal ds, parBad || !(rest.getLastD true))

/-- A CHI whose samples are in: the character, or back to waiting where the start bit is not confirmed. -/
def chiEnd (g : Nat) (ka : BitVec 3) (pin : BitVec 4) (lim : Bool) (cfg : Word) (bt : Nat) (x : Samp) (s : State) : State :=
  let y := sampDone g x s
  if badStart (bit cfg 10) y then seqHold g (.chi ka pin lim cfg bt none) s
  else
    let d := chiData cfg (y.got.map fun b => b != bit cfg 10)
    seqInTime g (doIf d.2 (seqSetF g 1 true) (setK g ka.toNat (wd d.1) s))

/-- The start bit of a CHI is confirmed: its sample is in or due, and is at start level. -/
def chiConfirmed (g : Nat) (cfg : Word) (x : Samp) (s : State) : Bool :=
  let y := x.before (16 * s.ft.dtb + 1) (seqLvl g x.pin.toNat s)
  y.got.head? == some (bit cfg 10)

/-- A holding microword ends by its time, its edge or level, or its timeout. A hold whose condition has not come goes on; a
timeout ends a CHI only while no start bit is confirmed. -/
def holdEnd (g : Nat) (timeout : Bool) (s : State) : State :=
  match (grate g s).hold with
  | none => s
  | some .wait => endHold g s
  | some (.wedge _ _ lim met) => if met then seqInTime g s else if timeout then seqTimeout g lim s else s
  | some (.wlvl mask val lim met) =>
    if met || seqLevels g s &&& mask == val then seqInTime g s else if timeout then seqTimeout g lim s else s
  | some (.pop f ka) => if (fifoHead (8 * g + 4 + f.toNat) s).isSome then endHold g (seqPop g f.toNat ka s) else s
  | some (.cho p frame _ _ echo) =>
    let bad := match echo with
      | some x => (sampDone g x s).got != frame
      | none => false
    let s1 := doIf bad (seqSetF g 1 true) s
    seqAct g p.toNat (b2n (frame.getLastD true)) (endHold g s1)
  | some (.chi ka pin lim cfg bt samp) =>
    if timeout then (if (samp.map fun x => chiConfirmed g cfg x s) == some true then s else seqTimeout g lim s)
    else match samp with
      | none => s
      | some x => chiEnd g ka pin lim cfg bt x s
  | some (.shi ka n inv samp) =>
    let v := bitsVal ((sampDone g samp s).got.map fun b => b != inv).reverse
    endHold g (setK g ka.toNat (wd ((seqK g ka.toNat s).toNat <<< n ||| v)) s)
  | some (.fqw p a t) => if 32 ≤ fqCount (16 * g + p.toNat) s then s else fqwSend (16 * g + p.toNat) t a (endHold g s)
  | some .wtick => s

/-- The hold of the microword at address pc ends at fine-step time t; nothing where another one is in hand. -/
def holdEndAt (g : Nat) (pc : Byte) (timeout : Bool) (t : Nat) (s : State) : State :=
  if (grate g s).pc = pc then holdEnd g timeout (reachFine t s) else s

/-- SEQ_HOLD_END: the grate, the address of the microword that holds, whether by its timeout, and the instant. -/
def execSeqHoldEnd (g : GrateNo) (pc : Byte) (timeout : Bool) (stamp : W64) (s : State) : Host.Outcome State Fault Refusal :=
  act s (holdEndAt g.toNat pc timeout stamp.toNat)

/-- A write of K register n through the register space: between microwords, so one that holds ends first (R204). -/
def kWrite (g n : Nat) (v : Word) (s : State) : State :=
  if (grate g s).hold.isNone then setK g n v s
  else modGrate g (fun x => { x with kPend := x.kPend ++ [(n, v)] }) s

/-! ### Registers -/

/-- SQ_TGT as read. -/
def sqTgt (g : Nat) (s : State) : Word := match (grate g s).tgt with | some t => wd (0x8000 + t) | none => 0

/-- SQ_STAT as read. -/
def sqStat (g : Nat) (s : State) : Word := (rg (bGrt g) 0x303 s &&& 0x7C) ||| wd (b2n (grate g s).run)

end Sys2Proof.Machine
end

