-- ==== Sys2Proof/Machine/Draught.lean ====
section
/-! DEFINITION. The draught engines (R243 to R253): descriptors, bursts, bindings to a subchannel's cursor, stops, resumes. -/
namespace Sys2Proof.Machine
open Sys2Proof

/-- Channel n of firebox f. -/
def chNo (f n : Nat) : Nat := 16 * f + n
/-- The firebox of channel k. -/
def chFbx (k : Nat) : Nat := k / 16
/-- DR_CH_DESC of channel k. -/
def chDesc (k : Nat) (s : State) : Nat := rgs (chBlk k) (chOfs k 2) 2 s
/-- The draught engine of a firebox runs: its firebox, hearth and die are neither in reset nor retired. -/
def drRuns (f : Nat) (s : State) : Bool :=
  !(s.fc.inReset.any fun u => u == (2, f) || u == (3, f / 8) || u == (4, f / 16)) && !dieRet (f / 16) s

/-! ### Sides of a descriptor (R244 to R246) -/

/-- What an address or deep offset names for the engine of firebox f (R229 to R231). -/
def drPlace (f : Nat) (deep : Bool) (a : Nat) (s : State) : Place :=
  if deep then deepPlace a s
  else if 2 ^ 32 ≤ a then .unmapped
  else match place (some f) none a s with
    | .reg _ => .unmapped
    | p => p

/-- Memory or a flue window. -/
def drOk (f : Nat) (deep : Bool) (a : Nat) (s : State) : Bool :=
  match drPlace f deep a s with
  | .mem _ | .flue _ => true
  | _ => false

/-- Word i of a side from address a on (R61, R246). -/
def sideStep (mode csize a i : Nat) : Nat :=
  if mode = 1 then a
  else if mode = 2 then a / 2 ^ csize * 2 ^ csize + (a % 2 ^ csize + i) % 2 ^ csize
  else a + i

/-- The addresses of n words of a side from address a on. -/
def sideAddrs (mode csize a n : Nat) : List Nat := (span 0 n).map (sideStep mode csize a)

/-- A memory side as a descriptor gives it: kind, deep, mode, circular size, start address. -/
structure Side where
  kind : Nat
  deep : Bool
  mode : Nat
  csize : Nat
  addr : Nat
  res : Nat
deriving DecidableEq, Repr

/-- The source side of a descriptor. -/
def srcSide (d : List Word) : Side :=
  { kind := fld (nth d 0) 15 14, deep := bit (nth d 0) 9, mode := fld (nth d 0) 7 6, csize := fld (nth d 7) 15 12
    addr := valOf [nth d 2, nth d 3], res := fld (nth d 1) 15 8 }
/-- The destination side of a descriptor. -/
def dstSide (d : List Word) : Side :=
  { kind := fld (nth d 0) 13 12, deep := bit (nth d 0) 8, mode := fld (nth d 0) 5 4, csize := fld (nth d 7) 11 8
    addr := valOf [nth d 4, nth d 5], res := fld (nth d 1) 7 0 }
/-- COUNT of a descriptor. -/
def descCount (d : List Word) : Nat := (nth d 6).toNat
/-- Words of n bytes. -/
def wordsOfBytes (n : Nat) : Nat := (n + 1) / 2

/-- A side's fields are as the descriptor format allows (error code 1). -/
def sideForm (x : Side) : Bool :=
  if x.kind = 0 then
    x.res == 0 && x.mode != 3 && (if x.mode = 2 then decide (4 ≤ x.csize) else x.csize == 0)
  else x.kind != 3 && x.mode == 0 && x.csize == 0

/-- A side's memory range is all memory or flue windows (error code 2). -/
def sidePlaced (f n : Nat) (x : Side) (s : State) : Bool :=
  if x.kind ≠ 0 then true
  else if x.mode = 2 then
    let lo := x.addr / 2 ^ x.csize * 2 ^ x.csize
    drOk f x.deep lo s && drOk f x.deep (lo + 2 ^ x.csize - 1) s
  else drOk f x.deep x.addr s && drOk f x.deep (if x.mode = 1 then x.addr else x.addr + n - 1) s

/-- A FIFO that the engine of firebox f may use in this direction (error code 3): of a grate or lane it owns. -/
def fifoMine (f k : Nat) (out : Bool) (s : State) : Bool :=
  if fifoIsLane k then
    decide (k < 640) && ((lane ((k - 512) / 4) s).own.map fun x => x.toNat) == some f && fifoInbound k != out
  else decide (k < 512) && grateOwner (k / 8) s == f && fifoInbound k != out

/-- A side's FIFO may be used. -/
def sideFifoOk (f : Nat) (x : Side) (out : Bool) (s : State) : Bool :=
  match sideFifo x.kind x.res out with
  | some k => (x.kind != 2 || decide (x.res % 64 < 32)) && fifoMine f k out s
  | none => true

/-- The error code of a descriptor, 0 where it may run (R245). -/
def descCheck (f : Nat) (d : List Word) (s : State) : Nat :=
  let a := srcSide d
  let b := dstSide d
  let n := wordsOfBytes (descCount d)
  if fld (nth d 0) 2 0 != 0 || fld (nth d 7) 7 0 != 0 || descCount d == 0 || !sideForm a || !sideForm b ||
     (a.kind != 0 && b.kind != 0) then 1
  else if !sidePlaced f n a s || !sidePlaced f n b s then 2
  else if !sideFifoOk f a false s || !sideFifoOk f b true s then 3
  else 0

/-! ### Reads and writes of memory sides -/

/-- An address lies in a flue window. -/
def flueAt (f : Nat) (deep : Bool) (s : State) (a : Nat) : Bool :=
  match drPlace f deep a s with
  | .flue _ => true
  | _ => false

/-- Some of the addresses lie in flue windows. -/
def onFlue (f : Nat) (deep : Bool) (as : List Nat) (s : State) : Bool := as.any (flueAt f deep s)

/-- Send reads for the flue addresses of a list; their tags and lengths in order (R282). -/
def drAsk (k : Nat) (deep : Bool) (as : List Nat) (s : State) : List (Nat × Nat) × State :=
  flReads 8 (as.filter (flueAt (chFbx k) deep s)) (fun a _ => .draught k a false) s

/-- Every flue read of the burst has come back. -/
def drGotAll (c : Chan) (b : Burst) : Bool := b.reads.all fun t => c.got.any fun g => g.1 == t.1

/-- The words of the flue reads in order. -/
def drGot (c : Chan) (b : Burst) : List Word :=
  b.reads.flatMap fun t => ((c.got.find? fun g => g.1 == t.1).map fun g => g.2).getD []

/-- The words at addresses or deep offsets: those of the prefetch buffer, those the flue reads have brought, and memory's;
whether one is uncorrectable, the first such address. -/
def drRead (f : Nat) (deep : Bool) (pre : List (Nat × Word)) : List Nat → List Word → State → List Word × Option Nat × State
  | [], _, s => ([], none, s)
  | a :: r, got, s =>
    match pre.find? fun p => p.1 == a with
    | some p =>
      let y := drRead f deep pre r got s
      (p.2 :: y.1, y.2)
    | none =>
      match drPlace f deep a s with
      | .mem k =>
        let x := memRead k s
        let y := drRead f deep pre r got x.2.2
        (x.1 :: y.1, (if x.2.1 then some a else y.2.1), y.2.2)
      | .flue _ | .reg _ | .unmapped =>
        let y := drRead f deep pre r (got.drop 1) s
        (got.headD 0 :: y.1, y.2)

/-- What a burst's read of memory meets now (`upset`): the address where it fails, if it does. -/
def drUpset (f : Nat) (deep : Bool) (as : List Nat) (err : Nat) (s : State) : Option Nat × State :=
  match as.findSome? fun a => match drPlace f deep a s with | .mem k => some (a, k) | _ => none with
  | some (a, k) =>
    let u := upset false k err s
    (if u.1 then some a else none, u.2)
  | none => (none, s)

/-- Write the memory words at addresses or deep offsets; the EDC outcome is that of `edcStore` (R239). -/
def drWrite (f : Nat) (deep : Bool) (as : List Nat) (ws : List Word) (edc : Nat) (s : State) : State :=
  (edcStore ((as.zip ws).filterMap fun aw =>
    match drPlace f deep aw.1 s with | .mem k => some (k, aw.2) | _ => none) edc s).2

/-- Send flue writes of words at addresses. -/
def drTell (k : Nat) (deep : Bool) (as : List Nat) (ws : List Word) (s : State) : State :=
  let aws := (as.zip ws).filter fun aw => flueAt (chFbx k) deep s aw.1
  (flWrites 8 (aws.map fun aw => aw.1) (aws.map fun aw => aw.2) (fun a => .draught k a true) s).2

/-- Flue requests of channel k are unanswered. -/
def drPending (k : Nat) (s : State) : Bool :=
  s.outst.any fun kv => match kv.2 with | .draught n _ _ => n == k | _ => false

/-! ### Commands of a channel (R245, R251, R252) -/

/-- DR_CH_RESID. -/
def setResid (k n : Nat) (s : State) : State := setRg (chBlk k) (chOfs k 5) (wd n) s
/-- DR_CH_CUR. -/
def setCur (k a : Nat) (s : State) : State := setRgs (chBlk k) (chOfs k 6) (wordsOf 2 a) s

/-- START: a channel that is not busy fetches its list; one halted with codes 1 to 4 first needs DR_CH_DESC rewritten. -/
def drStart (k : Nat) (s : State) : State :=
  let c := chan k s
  if chBusy c || (c.st == .halted && c.needDesc) || !drRuns (chFbx k) s then s
  else modChan k (fun x => { x with
    st := .run, bound := none, fifo := none, err := 0, fetching := true, stopReq := false, seg := none, latched := false, resumed := false
    part := x.st == .stopped && x.part }) (chRelease k s)

/-- DRAUGHT_START. -/
def execDraughtStart (_src : Src) (f : FireboxNo) (n : BitVec 4) (s : State) : Host.Outcome State Fault Refusal :=
  act s (drStart (chNo f.toNat n.toNat))

/-- DRAUGHT_STOP. -/
def execDraughtStop (_src : Src) (f : FireboxNo) (n : BitVec 4) (s : State) : Host.Outcome State Fault Refusal :=
  act s (chStop (chNo f.toNat n.toNat))

/-- The addresses a burst reads: its memory source. -/
def burstReads (c : Chan) (b : Burst) : List Nat :=
  match c.bound with
  | none => if (srcSide c.desc).kind = 0 then sideAddrs (srcSide c.desc).mode (srcSide c.desc).csize c.src b.n else []
  | some _ => (match chFifoAny c with
    | some q => if fifoInbound q then []
      else sideAddrs (wAmode b.cw) (wCsize b.cw) b.addr (wordsOfBytes (b2n b.odd + min (2 * b.n) b.cnt))
    | none => [])

/-- The addresses an unbound burst writes: its memory destination. -/
def burstWrites (c : Chan) (b : Burst) : List Nat :=
  if c.bound.isNone && (dstSide c.desc).kind = 0 then
    sideAddrs (dstSide c.desc).mode (dstSide c.desc).csize c.dst b.n
  else []

/-- Deep-offset reads. -/
def readsDeep (c : Chan) : Bool := c.bound.isNone && (srcSide c.desc).deep

/-- The flue reads of a burst are sent, but for words of the prefetch buffer. -/
def drIssue (k : Nat) (s : State) : State :=
  let c := chan k s
  match c.burst with
  | none => s
  | some b =>
    let as := (burstReads c b).filter fun a => !(b.pre.any fun p => p.1 == a)
    if as.all fun a => drOk (chFbx k) (readsDeep c) a s then
      let r := drAsk k (readsDeep c) as s
      modChan k (fun x => { x with burst := x.burst.map fun y => { y with reads := r.1 } }) r.2
    else s

/-- RESUME of an unbound channel halted with codes 5 to 7: the latched transaction is issued again (R252), a flue write with
the words it was sent with. -/
def drResume (k : Nat) (s : State) : State :=
  let c := chan k s
  if c.st != .halted || c.bound.isSome || c.err.toNat < 5 || !drRuns (chFbx k) s then s
  else
    let s1 := modChan k (fun x => { x with
      st := .run, err := 0, resumed := true, fetching := x.latched, got := []
      burst := if x.latched then none else x.burst.map fun b => { b with reads := [] } }) s
    match (chan k s1).burst with
    | some b =>
      if b.sent then drTell k (dstSide c.desc).deep (burstWrites c b) b.ws s1 else drIssue k s1
    | none => s1

/-- DRAUGHT_RESUME. -/
def execDraughtResume (_src : Src) (f : FireboxNo) (n : BitVec 4) (s : State) : Host.Outcome State Fault Refusal :=
  act s (drResume (chNo f.toNat n.toNat))

/-- A write of DR_CH_CMD. -/
def drCmd (k : Nat) (val : Word) (s : State) : State :=
  if val = 1 then drStart k s
  else if val = 2 then chStop k s
  else if val = 3 then drResume k s
  else setRgBit (chBlk k) 0 7 true s

/-- A write of word i of DR_CH_DESC: a new list starts at its first descriptor (R251, R252). -/
def drDescWrite (k i : Nat) (val : Word) (s : State) : State :=
  modChan k (fun c => { c with needDesc := false, part := false }) (setRg (chBlk k) (chOfs k (2 + i)) val s)

/-! ### Ends (R251, R253) -/

/-- A channel enters DONE and raises its event. -/
def drDone (k : Nat) (s : State) : State :=
  drEvent k (modChan k (fun c => { c with
    st := .done, bound := none, fifo := none, stopReq := false, seg := none, fetching := false, part := false, carry := [], carryEop := false }) s)

/-- The descriptor in hand ends: its event, then the list's end, a stop, or the next descriptor. -/
def drDescEnd (k : Nat) (s : State) : State :=
  let c := chan k s
  let evt := bit (nth c.desc 0) 10
  if bit (nth c.desc 0) 11 then drDone k s
  else
    let s1 := setRgs (chBlk k) (chOfs k 2) (wordsOf 2 ((chDesc k s + 8) % 2 ^ 32)) (doIf evt (drEvent k) s)
    if c.stopReq then chStopped k (modChan k (fun x => { x with left := 0 }) s1)
    else modChan k (fun x => { x with st := .run, fetching := true, left := 0, part := false }) s1

/-- Bytes of the bound subchannel's current CCW not yet moved. -/
def boundLeft (sub : Nat) (s : State) : Nat := (sch sub s).curCnt + (sch sub s).more

/-- The chain of the bound subchannel has no bytes left and no further CCW (R250). -/
def chainOver (sub : Nat) (s : State) : Bool :=
  let x := sch sub s
  x.curCnt == 0 && x.more == 0 && x.dcFetch.isNone && !(wFlag x.words 1 && wProc x.words)

/-- The segment a bound channel works on: the subchannel's, or its own once it is to stop (R251). -/
def boundSeg (c : Chan) (sub : Nat) (s : State) : Seg :=
  let x := sch sub s
  c.seg.getD { addr := x.curAddr.toNat, odd := x.curOdd, cnt := x.curCnt, more := x.more, cw := x.words }

/-- No bytes are left for a bound channel, and no further CCW. -/
def boundOver (c : Chan) (sub : Nat) (s : State) : Bool :=
  match c.seg with
  | some g => g.cnt == 0 && g.more == 0 && !(wFlag g.cw 1 && wProc g.cw)
  | none => chainOver sub s

/-- A bound transfer ends (R250). -/
def drBoundEnd (k sub : Nat) (s : State) : State :=
  let g := boundSeg (chan k s) sub s
  drDone k (setResid k (g.cnt + g.more) s)

/-! ### Descriptor fetch (R245) -/

/-- The descriptor's words have arrived: checked, and the channel starts moving or halts. -/
def drTakeDesc (k : Nat) (ws : List Word) (s : State) : State :=
  let c := chan k s
  let code := descCheck (chFbx k) ws s
  if code ≠ 0 then drHalt k code 0 false false false false true (modChan k (fun x => { x with desc := ws, burst := none }) s)
  else
    let left := if c.part then c.left else descCount ws
    let sa := if c.part then c.src else (srcSide ws).addr
    let da := if c.part then c.dst else (dstSide ws).addr
    setCur k (if (srcSide ws).kind = 0 then sa else da) (setResid k left (modChan k (fun x => { x with
      desc := ws, left := left, src := sa, dst := da, fetching := false, part := false, burst := none, got := [], resumed := false
      st := .run }) s))

/-- DESCRIPTOR_FETCH: through the flue the first such command sends the read and one after the answer takes it. `err`: what
its read meets (`upset`). -/
def drFetch (k err : Nat) (s : State) : State :=
  let c := chan k s
  let a := chDesc k s
  if !chBusy c || !c.fetching || s.safe.on then s
  else if a % 8 ≠ 0 then drHalt k 4 0 false false false false true s
  else match drPlace (chFbx k) false a s with
    | .mem m =>
      let u := upset false m err s
      let r := memReads m 8 u.2
      if u.1 || r.2.1 then drHalt k 7 a false false true false true r.2.2 else drTakeDesc k r.1 r.2.2
    | .flue _ =>
      (match c.burst with
       | none =>
         if tagsFree 1 s then
           (let r := drAsk k false (span a 8) s
            modChan k (fun x => { x with burst := some { n := 0, reads := r.1 } }) r.2)
         else s
       | some b => if drGotAll c b then drTakeDesc k (drGot c b) s else s)
    | _ => drHalt k 2 0 false false false false true s

/-- DESCRIPTOR_FETCH. -/
def execDescriptorFetch (f : FireboxNo) (e : ChanEnd) (s : State) : Host.Outcome State Fault Refusal :=
  act s (drFetch (chNo f.toNat e.n.toNat) e.err.toNat)

/-! ### Reservation (R243, R247) -/

/-- Words of the next burst of channel k when it is ready; none where it is not: its FIFO must request (R202) and hold, or
have free, the whole burst (R247). -/
def drReady (k : Nat) (s : State) : Option Nat :=
  let c := chan k s
  let words := match c.bound with
    | none => wordsOfBytes c.left
    | some sub => wordsOfBytes ((boundSeg c sub s).cnt - c.carry.length)
  let open_ := match c.bound with
    | none => decide (0 < c.left)
    | some sub => decide (0 < (boundSeg c sub s).cnt) && (c.seg.isSome || (sch sub s).dcFetch.isNone)
  let n := min (8 * 2 ^ fld (rg (chBlk k) (chOfs k 0) s) 15 14) words
  if !chBusy c || c.fetching || c.burst.isSome || !open_ || s.safe.on || !drRuns (chFbx k) s || !tagsFree 70 s then none
  else if c.carryEop || n = 0 then some 0
  else match chFifoAny c with
    | none => some n
    | some q =>
      if !fifoReq q s then none
      else if fifoInbound q then
        (let eop := (fifo q s).q.findIdx fun w => w.eop
         if (fifo q s).rsv ≠ 0 then none
         else if eop < (fifo q s).q.length then some (min n (eop + 1))
         else if n ≤ (fifo q s).q.length then some n else none)
      else if (fifo q s).rsvFree = 0 && n ≤ fifoFree q s then some n else none

/-- The channel the engine of firebox f chooses (R243): PRI = 1 first, then round-robin after the last choice. -/
def drChoose (f : Nat) (s : State) : Option Nat :=
  let last := mget 15 f s.drLast
  let order := (span 0 16).map fun i => chNo f ((last + 1 + i) % 16)
  let ready := order.filter fun k => (drReady k s).isSome
  match ready.find? fun k => bit (rg (chBlk k) (chOfs k 0) s) 13 with
  | some k => some k
  | none => ready.head?

/-- Another channel of the engine has a burst in flight: the engine chooses between bursts (R243). -/
def engineBusy (k : Nat) (s : State) : Bool :=
  (span 0 16).any fun n =>
    let c := chan (chNo (chFbx k) n) s
    chNo (chFbx k) n != k && chBusy c && !c.fetching && c.burst.isSome

/-- The words of the prefetch buffer that the first burst of a bound output segment takes (R89, R248). -/
def drPre (f sub : Nat) (b : Burst) (s : State) : List (Nat × Word) :=
  let x := sch sub s
  if x.preFor = x.ccw && b.addr == wDaddr b.cw && b.cnt == wCount b.cw then
    (sideAddrs (wAmode b.cw) (wCsize b.cw) b.addr (wordsOfBytes (min (2 * b.n) b.cnt))).filterMap fun a =>
      match drPlace f false a s with
      | .mem k => (x.prefetch.find? fun p => p.1 == k).map fun p => (a, p.2)
      | .flue k => (x.prefetch.find? fun p => p.1 == k).map fun p => (a, p.2)
      | .reg _ | .unmapped => none
  else []

/-- A burst of channel k is reserved. A bound channel whose chain is over ends instead (R250). -/
def drReserve (k : Nat) (s : State) : State :=
  let c := chan k s
  match c.bound with
  | some sub =>
    if chBusy c && c.burst.isNone && boundOver c sub s then drBoundEnd k sub s
    else go c s
  | none => go c s
where
  go (c : Chan) (s : State) : State :=
    match drReady k s with
    | none => s
    | some n =>
      if engineBusy k s || drChoose (chFbx k) s ≠ some k then s
      else
        let b : Burst := match c.bound with
          | none => { n := n }
          | some sub =>
            let g := boundSeg c sub s
            let b1 : Burst := { n := n, addr := g.addr, odd := g.odd, cnt := g.cnt, cw := g.cw }
            { b1 with pre := drPre (chFbx k) sub b1 s }
        let s1 := modChan k (fun x => { x with burst := some b, st := if x.st == .stopping then .stopping else .run, got := [] }) s
        let s2 := match chFifoAny c with
          | some q =>
            if fifoInbound q then modFifo q (fun x => { x with rsv := n }) s1 else modFifo q (fun x => { x with rsvFree := n }) s1
          | none => s1
        drIssue k { s2 with drLast := mset 15 (chFbx k) (k % 16) s2.drLast }

/-- BURST_RESERVATION. -/
def execBurstReservation (f : FireboxNo) (n : BitVec 4) (s : State) : Host.Outcome State Fault Refusal :=
  act s (drReserve (chNo f.toNat n.toNat))

/-! ### Completion (R246 to R250) -/

/-- The burst is over: its reservation goes and the words and bursts count. -/
def drBurstOver (k n : Nat) (s : State) : State :=
  let c := chan k s
  let s1 := modChan k (fun x => { x with burst := none, got := [], resumed := false }) s
  let s2 := match chFifoAny c with
    | some q => modFifo q (fun x => { x with rsv := 0, rsvFree := 0 }) s1
    | none => s1
  countBy (chBlk k) 0x10 n (count (chBlk k) 0x12 s2)

/-- Take n words out of a FIFO. -/
def fifoTakeN (q : Nat) : Nat → State → State
  | 0, s => s
  | n + 1, s => fifoTakeN q n (fifoTake q s)

/-- After a burst that leaves its descriptor or segment unfinished: a channel that is to stop and has no next burst ready
stops; one that waits for its FIFO is in WAIT (R251). -/
def drAfter (k : Nat) (s : State) : State :=
  let c := chan k s
  if (drReady k s).isSome || (chFifoAny c).isNone then s
  else if c.stopReq then chStopped k s
  else modChan k (fun x => { x with st := .wait }) s

/-- The words of an unbound burst reach their destination. -/
def drMove (k : Nat) (b : Burst) (ws : List Word) (eop : Bool) (s : State) : State :=
  let c := chan k s
  let a := srcSide c.desc
  let d := dstSide c.desc
  let m := min (2 * b.n) c.left
  let left := c.left - m
  let s1 := drBurstOver k b.n s
  let s2 := match sideFifo d.kind d.res true with
    | some q => fifoPuts q (ws.mapIdx fun i w =>
        let last := left == 0 && i + 1 == ws.length
        { w := w, eop := last && bit (nth c.desc 0) 3, odd := last && descCount c.desc % 2 == 1 }) s1
    | none => s1
  let src := sideStep a.mode a.csize c.src b.n
  let dst := sideStep d.mode d.csize c.dst b.n
  let s3 := setCur k (if a.kind = 0 then src else dst) (setResid k left (modChan k (fun x => { x with
    left := left, src := src, dst := dst, carryEop := false }) s2))
  if left = 0 || eop then drDescEnd k s3 else drAfter k s3

/-- The last word of an odd count carries its byte in [15:8] and 0 below (R10). -/
def oddTail (left n : Nat) (ws : List Word) : List Word :=
  if left < 2 * n then ws.mapIdx fun i w => if i + 1 = ws.length then w &&& 0xFF00 else w else ws

/-- What an unbound burst moves: its words, the address of an uncorrectable one, whether an EOP word ends it, and the state
after the reads. -/
def drSource (k : Nat) (b : Burst) (err : Nat) (s : State) : List Word × Option Nat × Bool × State :=
  let c := chan k s
  let a := srcSide c.desc
  match sideFifo a.kind a.res false with
  | some q =>
    let taken := (fifo q s).q.take b.n
    (oddTail c.left b.n (taken.map fun w => w.w), none, (match taken.getLast? with | some w => w.eop | none => false), s)
  | none =>
    let u := drUpset (chFbx k) a.deep (burstReads c b) err s
    let r := drRead (chFbx k) a.deep [] (burstReads c b) (drGot c b) u.2
    (oddTail c.left b.n r.1, (if u.1.isSome then u.1 else r.2.1), false, r.2.2)

/-- The memory ranges of an unbound burst are still what a channel may use (R230, R245). -/
def drPlaced (k : Nat) (b : Burst) (s : State) : Bool :=
  let c := chan k s
  ((burstReads c b).all fun a => drOk (chFbx k) (readsDeep c) a s) &&
    (burstWrites c b).all fun a => drOk (chFbx k) (dstSide c.desc).deep a s

/-- An unbound burst completes: source words, an uncorrectable error among them, flue traffic in two steps. `err`: 1 to 4
what its reads meet (`upset`), 5 and 6 what its writes meet (`edcStore` 1 and 2). -/
def drUnbound (k : Nat) (b : Burst) (err : Nat) (s : State) : State :=
  let c := chan k s
  let f := chFbx k
  let d := dstSide c.desc
  if b.sent then (if drPending k s then s else drMove k b [] c.carryEop s)
  else if !drPlaced k b s then drHalt k 2 0 false false false false true (chRelease k s)
  else if !drGotAll c b then s
  else
    let r := drSource k b err s
    match r.2.1 with
    | some bad => drHalt k 6 bad (srcSide c.desc).deep false false false true r.2.2.2
    | none =>
      let s1 := match sideFifo (srcSide c.desc).kind (srcSide c.desc).res false with
        | some q => fifoTakeN q b.n (modFifo q (fun x => { x with rsv := 0 }) r.2.2.2)
        | none => r.2.2.2
      let das := burstWrites c b
      let s2 := drWrite f d.deep das r.1 (err - 4) s1
      if onFlue f d.deep das s2 then
        modChan k (fun x => { x with
          burst := x.burst.map fun y => { y with sent := true, ws := r.1 }, carryEop := r.2.2.1 }) (drTell k d.deep das r.1 s2)
      else drMove k b r.1 r.2.2.1 s2

/-- Bytes of FIFO words: two each, one where tagged ODD (R250). -/
def fifoBytes (ws : List FWord) : List Byte :=
  ws.flatMap fun w => if w.odd then [(w.w >>> 8).setWidth 8] else [(w.w >>> 8).setWidth 8, w.w.setWidth 8]

/-- Bytes as words; an odd last byte stands in [15:8] over 0 (R10). -/
def packBytes : List Byte → List Word
  | [] => []
  | [a] => [a ++ (0 : Byte)]
  | a :: b :: r => (a ++ b) :: packBytes r

/-- The cursor moves for a channel whose burst began at it, and the channel's own segment with it. -/
def drAdvance (k sub m : Nat) (b : Burst) (s : State) : State :=
  let x := sch sub s
  let pos := b2n b.odd + m
  let s1 := modChan k (fun c => { c with seg := c.seg.map fun g => { g with
    addr := sideStep (wAmode g.cw) (wCsize g.cw) g.addr (pos / 2), odd := pos % 2 == 1, cnt := g.cnt - m } }) s
  if x.curAddr.toNat = b.addr && x.curOdd == b.odd && x.curCnt == b.cnt && x.words == b.cw then curMove sub m s1 else s1

/-- After the bytes of a bound burst have moved: the transfer's end, the next segment, or on (R250, R251). -/
def drBoundNext (k sub : Nat) (ended : Bool) (s : State) : State :=
  let c := chan k s
  let g := boundSeg c sub s
  let s1 := setResid k (g.cnt + g.more) (setCur k g.addr s)
  if ended || boundOver c sub s then drBoundEnd k sub s1
  else if g.cnt = 0 then
    let s2 := if hasProgram (sch sub s1).st then addDue (.advance sub) s1 else s1
    if c.stopReq then chStopped k s2 else modChan k (fun x => { x with st := .wait }) s2
  else drAfter k s1

/-- A bound input burst's words and bytes: the stream's bytes the segment takes, the bytes left over, whether the stream ends
with the burst, and the words stored. -/
def inputWords (k q : Nat) (b : Burst) (s : State) : List Byte × List Byte × Bool × List Word :=
  let c := chan k s
  let taken := (fifo q s).q.take b.n
  let bytes := c.carry ++ fifoBytes taken
  let now := bytes.take b.cnt
  let old : Byte := if !b.odd then 0 else
    (match drPlace (chFbx k) false b.addr s with
     | .mem m => ((memGet m s).1 >>> 8).setWidth 8
     | .flue _ | .reg _ | .unmapped => c.lastByte)
  (now, bytes.drop b.cnt, c.carryEop || taken.any (fun w => w.eop), packBytes (if b.odd then old :: now else now))

/-- The addresses a bound input burst stores to: none with SKIP = 1 (R66, R249). -/
def inputAddrs (b : Burst) (n : Nat) : List Nat :=
  if wFlag b.cw 3 then [] else sideAddrs (wAmode b.cw) (wCsize b.cw) b.addr n

/-- A bound input burst: the FIFO's words become bytes of the stream; those the segment takes are stored, unless SKIP. -/
def drInput (k sub q : Nat) (b : Burst) (err : Nat) (s : State) : State :=
  let f := chFbx k
  let r := inputWords k q b s
  let as := inputAddrs b r.2.2.2.length
  let fin (t : State) : State :=
    let t1 := drBurstOver k b.n (fifoTakeN q b.n (modFifo q (fun x => { x with rsv := 0 }) t))
    drBoundNext k sub (r.2.2.1 && r.2.1.isEmpty) (drAdvance k sub r.1.length b (modChan k (fun x => { x with
      carry := r.2.1, carryEop := r.2.2.1 && !r.2.1.isEmpty, lastByte := r.1.getLastD x.lastByte }) t1))
  if b.sent then (if drPending k s then s else fin s)
  else if !(as.all fun a => drOk f false a s) then drHalt k 2 0 false false false false true s
  else
    let s1 := drWrite f false as r.2.2.2 (err - 4) s
    if onFlue f false as s then
      modChan k (fun x => { x with burst := x.burst.map fun y => { y with sent := true } }) (drTell k false as r.2.2.2 s1)
    else fin s1

/-- A bound output burst: the segment's bytes become FIFO words; the last of an odd segment is ODD, the last of the chain
EOP. -/
def drOutput (k sub q : Nat) (b : Burst) (err : Nat) (s : State) : State :=
  let c := chan k s
  let f := chFbx k
  let m := min (2 * b.n) b.cnt
  let as := burstReads c b
  if !(as.all fun a => drOk f false a s) then drHalt k 2 0 false false false false true s
  else if !drGotAll c b then s
  else
    let u := drUpset f false (as.filter fun a => !(b.pre.any fun p => p.1 == a)) err s
    let r := drRead f false b.pre as (drGot c b) u.2
    match (if u.1.isSome then u.1 else r.2.1) with
    | some bad => drHalt k 6 bad false false false false true r.2.2
    | none =>
      let bytes := ((fifoBytes (r.1.map fun w => { w := w })).drop (b2n b.odd)).take m
      let ws := packBytes bytes
      let s1 := drAdvance k sub m b (drBurstOver k b.n r.2.2)
      let last := m == b.cnt && boundOver (chan k s1) sub s1
      let s2 := fifoPuts q (ws.mapIdx fun i w =>
        let e := i + 1 == ws.length
        { w := w, eop := e && last, odd := e && m % 2 == 1 }) s1
      drBoundNext k sub false s2

/-- A burst completes (R248). -/
def drComplete (k err : Nat) (s : State) : State :=
  let c := chan k s
  if c.fetching || c.st == .halted || !drRuns (chFbx k) s then s
  else match c.burst with
    | none => s
    | some b =>
      match c.bound, chFifoAny c with
      | some sub, some q => if fifoInbound q then drInput k sub q b err s else drOutput k sub q b err s
      | _, _ => drUnbound k b err s

/-- BURST_COMPLETE. -/
def execBurstComplete (f : FireboxNo) (e : ChanEnd) (s : State) : Host.Outcome State Fault Refusal :=
  act s (drComplete (chNo f.toNat e.n.toNat) e.err.toNat)

/-! ### Binding (R249) -/

/-- The FIFO that DR_BIND0 names for a direction. -/
def bindFifo (w : Word) (out : Bool) : FifoId :=
  if bit w 15 then .lane (BitVec.ofNat 5 (fld w 13 8)) (BitVec.ofNat 2 (fld w 1 0))
  else .grate (BitVec.ofNat 6 (fld w 13 8)) (BitVec.ofNat 3 (fld w 1 0 + (if out then 4 else 0)))

/-- A write of DR_BIND1: with GO = 1 the channel is bound, or DR_STAT.BINDERR. -/
def drBind (k : Nat) (val : Word) (s : State) : State :=
  let f := chFbx k
  let c := chan k s
  let sub := 128 * f + 16 * fld val 6 4 + fld val 3 0
  let x := sch sub s
  let dir := match x.entry with | some e => entDir e | none => 0
  let w := rg (chBlk k) (chOfs k 0xB) s
  let fid := bindFifo w (dir == 2)
  if !bit val 15 then s
  else if !(c.st == .idle || c.st == .done || c.st == .stopped) || x.st != .active || dir == 0 ||
      (bit w 15 && decide (32 ≤ fld w 13 8)) || !fifoMine f (FifoId.idx fid) (dir == 2) s || !drRuns f s then
    setRgBit (chBlk k) 0 6 true s
  else
    let s1 := modChan k (fun _ => { st := .run, bound := some sub, fifo := some fid }) s
    let s2 := setResid k (boundLeft sub s) (setCur k x.curAddr.toNat s1)
    if chainOver sub s2 then drBoundEnd k sub s2
    else if x.curCnt = 0 then addDue (.advance sub) s2 else s2

/-- DRAUGHT_BIND. -/
def execDraughtBind (_src : Src) (f : FireboxNo) (n : BitVec 4) (val : Word) (s : State) : Host.Outcome State Fault Refusal :=
  act s (drBind (chNo f.toNat n.toNat) val)

/-! ### Registers and bus errors -/

/-- DR_CH_STAT as read. -/
def chStat (k : Nat) (s : State) : Word :=
  let c := chan k s
  let st := match c.st with
    | .idle => 0 | .run => 1 | .wait => 2 | .stopping => 3 | .done => 4 | .stopped => 5 | .halted => 6
  wd (st * 8192 + b2n c.bound.isSome * 4096 + c.err.toNat * 256)

/-- DR_BUSY as read. -/
def drBusyWord (f : Nat) (s : State) : Word :=
  (span 0 16).foldl (fun w n => setBit w n (chBusy (chan (chNo f n) s))) 0

/-- The transactions of a list of addresses, by their first addresses: packets through the flue, else the fabric
transactions that a wrap makes (R246, R282). -/
def txStarts (f : Nat) (deep : Bool) (as : List Nat) (s : State) : List Nat :=
  (runsIn (if onFlue f deep as s then 8 else 0) as).map fun x => x.1

/-- The transaction in hand of channel k has had no answer (R252): the descriptor fetch, or one of the burst's. Which side of
a burst between two memories it was, which of its transactions, and whether a write has landed are free values (R236). -/
def drTimeout (k : Nat) (s : State) : State :=
  let c := chan k s
  let f := chFbx k
  if !chBusy c then s
  else if c.fetching then
    let a := chDesc k s
    drHalt k 7 a false false true true (!shadowAddr a s) s
  else match c.burst with
    | none => s
    | some b =>
      let w := freshWord s
      let ins := match c.bound, chFifoAny c with
        | some _, some q => if fifoInbound q then (inputWords k q b s).2.2.2 else []
        | _, _ => []
      let was := if c.bound.isSome then (if ins.isEmpty then [] else inputAddrs b ins.length) else burstWrites c b
      let ras := burstReads c b
      let wr := b.sent || ras.isEmpty || (!was.isEmpty && bit w.1 0)
      let as := if wr then was else ras
      let deep := c.bound.isNone && (if wr then (dstSide c.desc).deep else (srcSide c.desc).deep)
      let txs := txStarts f deep as s
      if txs.isEmpty then s
      else
        let a := txs.getD (fld w.1 15 2 % txs.length) 0
        let s1 := if wr && bit w.1 1 && !b.sent then
            (let r := drSource k b 0 w.2
             drWrite f deep was (if c.bound.isSome then ins else r.1) 0 (if c.bound.isSome then w.2 else r.2.2.2))
          else w.2
        drHalt k 5 a deep wr false true (deep || !shadowAddr a s) s1

end Sys2Proof.Machine
end

