-- ==== Sys2Proof/Machine/Power.lean ====
section
/-! DEFINITION. Device reset, supplies, clocks and monitors (R21, R375 to R384), and the boundary-scan port (R382). -/
namespace Sys2Proof.Machine
open Sys2Proof

/-- Everything outside the ember domain and the boundary-scan port at its reset value (R378): GDDR6 loses its contents
(R240), MRAM, the soot log writer, the signing index and the fuses stay (R365, R366). An index a running quote had
reserved is skipped (R368). SRAM is initialised by boot stage 1 (R233). -/
def deviceReset (s : State) : State :=
  { pending := s.pending
    free := s.free
    pwr := { s.pwr with hot := false, crit := false, railsOut := [] }
    mem := s.mem.filter fun c => decide (c.1 < 0x40000000)
    mram := s.mram
    fc := { seq := s.fc.seq, soot := s.fc.soot }
    sec := { next := s.sec.next + (if s.sec.signing then 1 else 0), resEnd := s.sec.resEnd, mramBusy := s.sec.mramBusy }
    tap := s.tap }

/-- Change the supply and clock state. -/
def modPwr (f : Power → Power) (s : State) : State := { s with pwr := f s.pwr }

/-- RESET_N falls (R378). -/
def resetAssert (s : State) : State :=
  modPwr (fun p => { p with resetN := false, pll := false, tbLost := false }) (deviceReset s)

/-- RESET_ASSERT. -/
def execResetAssert (s : State) : Host.Outcome State Fault Refusal := actAlways s resetAssert

/-- RESET_N rises: BOOTSEL is sampled (R356), SAFE_N is as it stands. -/
def resetRelease (bootsel : BitVec 2) (safeN : Bool) (s : State) : State :=
  if s.pwr.resetN then s
  else
    let s1 := modPwr (fun p => { p with resetN := true, bootsel := bootsel, safeN := safeN }) s
    { s1 with boot := { s1.boot with src := bootsel } }

/-- RESET_RELEASE. -/
def execResetRelease (bootsel : BitVec 2) (safeN : Bool) (s : State) : Host.Outcome State Fault Refusal :=
  actAlways s (resetRelease bootsel safeN)

/-- Boot stage 1 begins (R233, R357): SRAM is initialised, the boot count of the boot record advances (R365). -/
def bootBegin (s : State) : State :=
  let n := valOf [mramGet 0x80D6 s, mramGet 0x80D7 s]
  let s1 := doIf s.pwr.emberOk (mramPuts 0x80D6 (wordsOf 2 (n + 1))) s
  { s1 with
    mem := s1.mem.filter fun c => decide (0x40000000 ≤ c.1)
    marks := s1.marks.filter fun m => !isSram m.1
    boot := { s1.boot with stage := 1 } }

/-- The timebase PLL locks (R21, R357): boot begins, and a low SAFE_N enters safe state (R224). A relock after a loss leaves
TBLOSS and safe state as they are (R226). -/
def pllLock (s : State) : State :=
  if !s.pwr.resetN || s.pwr.railLow || s.pwr.pll then s
  else
    let s1 := modPwr (fun p => { p with pll := true }) s
    if s.pwr.tbLost then s1
    else doIf (!s1.pwr.safeN) (safeEnter 1 none) (bootBegin s1)

/-- TIMEBASE_PLL_LOCK. -/
def execTimebasePllLock (s : State) : Host.Outcome State Fault Refusal := actAlways s pllLock

/-- VDD_CORE or VDD_BASE falls below 90 % for 1 µs (R376): as RESET_N low until the rail returns. -/
def railFall (s : State) : State :=
  modPwr (fun p => { p with railLow := true, pll := false, tbLost := false }) (deviceReset s)

/-- RAIL_UNDERVOLTAGE. -/
def execRailUndervoltage (s : State) : Host.Outcome State Fault Refusal := actAlways s railFall

/-- The rail returns: as a release of RESET_N, with BOOTSEL as it is applied. -/
def railReturn (s : State) : State :=
  let s1 := modPwr (fun p => { p with railLow := false }) s
  { s1 with boot := { s1.boot with src := if s1.pwr.resetN then s1.pwr.bootsel else s1.boot.src } }

/-- RAIL_RECOVERY. -/
def execRailRecovery (s : State) : Host.Outcome State Fault Refusal := actAlways s railReturn

/-! ### Monitors (R383, R384) -/

/-- Nominal mV and tolerance in percent of rail m (R372). -/
def railNominal (m : Nat) : Nat × Nat :=
  [(750, 3), (800, 3), (1350, 5), (900, 3), (1200, 5), (1800, 5), (1800, 5)].getD m (1800, 5)

/-- Rail m at v mV is outside its tolerance (R372). -/
def railBad (m v : Nat) : Bool :=
  let r := railNominal m
  decide (100 * v < r.1 * (100 - r.2)) || decide (r.1 * (100 + r.2) < 100 * v)

/-- The voltage monitors have new values (R384): MON_VOLT when a rail leaves its tolerance; VDD_EMBER outside its own
raises EMB_SUPPLY. VDDIO is only shown. -/
def voltSample (mv vio : List Word) (s : State) : State :=
  let s1 := setRgs 7 0x120 (vio.take 16) (setRgs 7 0x110 (mv.take 7) s)
  let out := (span 0 6).filter fun m => railBad m (nth mv m).toNat
  let newly := out.filter fun m => !s.pwr.railsOut.contains m
  let emberBad := railBad 6 (nth mv 6).toNat
  let s2 := doIf (!newly.isEmpty) (raise 7 2 (wd (newly.headD 0))) (modPwr (fun p => { p with railsOut := out }) s1)
  doIf (emberBad && s.pwr.emberOk) (raise 5 1 0)
    (modPwr (fun p => { p with emberOk := p.emberOk && !emberBad }) s2)

/-- VOLTAGE_MONITOR_SAMPLE. -/
def execVoltageMonitorSample (mv vio : List Word) (s : State) : Host.Outcome State Fault Refusal := act s (voltSample mv vio)

/-- The grade's highest Tj in 1/16 °C (R1); a grade that is not issued has the lower one. -/
def gradeMax : Int := if Config.grade = 1 then 105 * 16 else 100 * 16

/-- The sensors have new values (R383). -/
def tempSample (ts : List Word) (s : State) : State :=
  let v := (ts.take 8).map fun w => sx 16 w.toNat
  let above := v.any fun t => decide (gradeMax < t)
  let cool := v.all fun t => decide (t ≤ gradeMax - 80)
  let crit := v.any fun t => decide (gradeMax + 160 ≤ t)
  let s1 := modPwr (fun p => { p with hot := above || (p.hot && !cool), crit := crit }) (setRgs 7 0x100 (ts.take 8) s)
  doIf (crit && !s.pwr.crit) (raise 7 1 0) (doIf (above && !s.pwr.hot) (raise 7 0 0) s1)

/-- TEMPERATURE_SAMPLE. -/
def execTemperatureSample (temps : List Word) (s : State) : Host.Outcome State Fault Refusal := act s (tempSample temps)

/-! ### The boundary-scan port (R382) -/

/-- Change the port's state. -/
def modTap (f : Tap → Tap) (s : State) : State := { s with tap := f s.tap }

/-- The 32 bits of IDCODE. -/
def idcode : BitVec 32 :=
  BitVec.ofNat 32 (Config.step.toNat * 2 ^ 28 + 0x2416 * 2 ^ 12 + Config.jedecId.toNat * 2 + 1)

/-- IDCODE: the identification register is captured. -/
def execIdcode (s : State) : Host.Outcome State Fault Refusal :=
  actAlways s (modTap fun t => { t with ir := 0x01, capture := idcode.setWidth 258 })

/-- SAMPLE/PRELOAD: the chain's update cells take what was shifted in. -/
def execSamplePreload (chain : FMap Bool) (s : State) : Host.Outcome State Fault Refusal :=
  actAlways s (modTap fun t => { t with ir := 0x02, chain := chain })

/-- EXTEST: the pins of the chain are driven from its cells. -/
def execExtest (s : State) : Host.Outcome State Fault Refusal := actAlways s (modTap fun t => { t with ir := 0x03 })

/-- CLAMP: the pins of the chain hold what its cells say; the bypass register is selected. -/
def execClamp (s : State) : Host.Outcome State Fault Refusal :=
  actAlways s (modTap fun t => { t with ir := 0x04, capture := 0 })

/-- HIGHZ: the pins of the chain are at high impedance; the bypass register is selected. -/
def execHighz (s : State) : Host.Outcome State Fault Refusal :=
  actAlways s (modTap fun t => { t with ir := 0x05, capture := 0 })

/-- FUSEKEY (R361, R382): accepted only while RESET_N is low; an empty slot is programmed, a filled one stays. The next
capture holds the slot and its stored hash. -/
def fuseKey (slot : BitVec 2) (hash : BitVec 256) (s : State) : State :=
  let s1 := modTap (fun t => { t with ir := 0x20 }) s
  if s.pwr.resetN then s1
  else
    let keys := if s.tap.keys.any fun kv => kv.1 == slot.toNat then s.tap.keys else mput slot.toNat hash s.tap.keys
    modTap (fun t => { t with keys := keys, capture := slot ++ mget 0 slot.toNat keys }) s1

/-- FUSEKEY. -/
def execFusekey (slot : BitVec 2) (hash : BitVec 256) (s : State) : Host.Outcome State Fault Refusal :=
  actAlways s (fuseKey slot hash)

/-- BYPASS, and every code not listed: the bypass register is selected. -/
def execBypass (code : Byte) (s : State) : Host.Outcome State Fault Refusal :=
  actAlways s (modTap fun t => { t with ir := code, capture := 0 })

/-- TRST_N resets the port: IDCODE is in force, and the cells are empty (IEEE 1149.1). -/
def execTapReset (s : State) : Host.Outcome State Fault Refusal :=
  actAlways s (modTap fun t => { t with ir := 0x01, capture := 0 })

/-- Whether the port, not the core, drives the pins of its chain (R382). -/
def tapDrives (s : State) : Bool := s.tap.ir == 0x03 || s.tap.ir == 0x04 || s.tap.ir == 0x05

/-- SEC_KEYS as read. -/
def secKeys (s : State) : Word :=
  wd (((span 0 4).map fun k => b2n (s.tap.keys.any fun kv => kv.1 == k) * 2 ^ (4 + k)).foldl (· + ·) 0 + s.tap.revoked.toNat)

end Sys2Proof.Machine
end

