-- ==== Sys2Proof/Machine/Ember.lean ====
section
/-! DEFINITION. The ember domain's access window and signing index (R365, R366), and the start and signature of quotes (R367
to R370). -/
namespace Sys2Proof.Machine
open Sys2Proof

/-- CRC-16/CCITT with initial value 0xFFFF over bytes (R312). -/
def crc16 (bs : List Byte) : Word := bs.foldl (crcByte 0x1021) 0xFFFF

/-- The bytes of words, most significant first (R10). -/
def bytesOf (ws : List Word) : List Byte := ws.flatMap fun w => [BitVec.ofNat 8 (fld w 15 8), BitVec.ofNat 8 (fld w 7 0)]

/-- Change the security engine's own state. -/
def modSec (f : Sec → Sec) (s : State) : State := { s with sec := f s.sec }

/-! ### MRAM through EMB_DATA (R365) -/

/-- EMB_ADDR. -/
def embAddr (s : State) : Nat := fld (rg 5 1 s) 1 0 * 65536 + (rg 5 2 s).toNat

/-- ADDR advances by 1, wrapping at 0x3_FFFF. -/
def embNext (s : State) : State :=
  let a := (embAddr s + 1) % 0x40000
  setRg 5 2 (wd a) (setRg 5 1 (wd (a / 65536)) s)

/-- An access that finds BUSY waits until the write in progress is over. -/
def embReady (s : State) : State := modSec (fun x => { x with mramBusy := false }) s

/-- A read of EMB_DATA. -/
def embDataRead (s : State) : Word × State :=
  let w := mramGet (embAddr s) s
  (w, embNext (modSec (fun x => { x with embRead := w }) (embReady s)))

/-- EMBER_DATA_READ. -/
def execEmberDataRead (_src : Src) (s : State) : Host.Outcome State Fault Refusal := act s fun t => (embDataRead t).2

/-- A write of EMB_DATA: into the customer area only, else ROW. -/
def embDataWrite (val : Word) (s : State) : State :=
  let s1 := embReady s
  let a := embAddr s
  embNext (if a < 0x10000 then setRgBit 5 0 6 true s1
    else modSec (fun x => { x with mramBusy := true }) (mramPut a val s1))

/-- EMBER_DATA_WRITE. -/
def execEmberDataWrite (_src : Src) (val : Word) (s : State) : Host.Outcome State Fault Refusal := act s (embDataWrite val)

/-- MRAM_WRITE_COMPLETE: the write in progress is over; it does not need the other rails (R347). -/
def execMramWriteComplete (s : State) : Host.Outcome State Fault Refusal := actAlways s embReady

/-- EMB_STAT as read. -/
def embStat (s : State) : Word :=
  wd (b2n s.pwr.emberOk * 32768 + b2n s.sec.mramBusy * 16384) ||| (rg 5 0 s &&& 0xC0)

/-! ### The signing index (R366) -/

/-- The words of reservation slot k. -/
def idxSlot (k : Nat) (s : State) : List Word := (span (0x8000 + 16 * k) 6).map fun i => mramGet i s

/-- RES_END of a slot with a valid CRC. -/
def idxEnd (k : Nat) (s : State) : Option Nat :=
  let w := idxSlot k s
  if crc16 (bytesOf (w.take 5)) = nth w 5 then some (fld (nth w 0) 7 0 * 2 ^ 32 + valOf [nth w 1, nth w 2]) else none

/-- The newest valid slot: its number and RES_END, the highest. -/
def idxNewest (s : State) : Option (Nat × Nat) :=
  (span 0 8).foldl (fun a k => match idxEnd k s, a with
    | some e, some (k', e') => if e' < e then some (k, e) else some (k', e')
    | some e, none => some (k, e)
    | none, _ => a) none

/-- SEC_STAT.IDX_OK is found out; with no valid slot EMB_UE is raised (R366). -/
def idxCheck (s : State) : State :=
  let ok := (idxNewest s).isSome
  doIf (!ok) (raise 5 0 0) (setRgBit 4 0 14 ok s)

/-- VDD_EMBER returns after a loss: NEXT becomes the highest RES_END of the valid slots (R366). -/
def emberReturn (s : State) : State :=
  let s1 := modPwr (fun p => { p with emberOk := true }) s
  let s2 := match idxNewest s1 with
    | some (_, e) => modSec (fun x => { x with next := e, resEnd := e }) s1
    | none => s1
  if up s2 && s2.sec.katOk then idxCheck s2 else s2

/-- EMBER_SUPPLY_RETURN. -/
def execEmberSupplyReturn (s : State) : Host.Outcome State Fault Refusal := actAlways s emberReturn

/-- Reserve the next block when NEXT lies outside the current one: RES_END goes to the slot after the newest valid one. -/
def idxReserve (s : State) : State :=
  if s.sec.next < s.sec.resEnd then s
  else
    let e := min (s.sec.next + 64) (2 ^ 40)
    let k := match idxNewest s with | some (k, _) => k | none => 7
    let n := valOf ((idxSlot k s).drop 3 |>.take 2)
    let ws := wordsOf 3 e ++ wordsOf 2 ((n + 1) % 2 ^ 32)
    mramPuts (0x8000 + 16 * ((k + 1) % 8)) (ws ++ [crc16 (bytesOf ws)]) (modSec (fun x => { x with resEnd := e }) s)

/-! ### Quotes (R368 to R370) -/

/-- A quote is RUNNING. -/
def quoteRuns (s : State) : Bool := s.sec.state == 1

/-- A quote ends without one. -/
def quoteFail (cause : Nat) (s : State) : State :=
  modSec (fun x => { x with state := 3, cause := cause, signing := false }) s

/-- A try of the digest begins: G0, D and SOOT_SEQ are sampled (R369). -/
def quoteTry (s : State) : State :=
  modSec (fun x => { x with g0 := x.cfgGen, d := s.ft.dtb, sootAt := s.fc.seq, tries := x.tries + 1 }) s

/-- A quote starts with its nonce words (R368); without the known-answer check, a valid slot or an index left it fails. -/
def quoteBegin (nonce : List Word) (s : State) : State :=
  let s1 := modSec (fun x => { x with state := 1, cause := 0, tries := 0, unstable := false, nonce := nonce, signing := false }) s
  if !s.sec.katOk then quoteFail 3 s1
  else if !bit (rg 4 0 s) 14 then quoteFail 2 s1
  else if 2 ^ 40 ≤ s.sec.next then quoteFail 1 s1
  else quoteTry s1

/-- Key of nonce word i of a source (R368). -/
def nonceKey (src : Src) (i : Nat) : Nat := srcNo src * 16 + i

/-- A write of QT_CMD (R368). -/
def quoteCmd (src : Src) (val : Word) (s : State) : State :=
  let n := fld val 4 0
  if n = 0 || 16 < n then setRgBit 4 0 7 true s
  else if quoteRuns s then setRgBit 4 3 7 true s
  else quoteBegin ((span 0 n).map fun i => mget 0 (nonceKey src i) s.sec.nonces) s

/-- QUOTE_START. -/
def execQuoteStart (src : Src) (val : Word) (s : State) : Host.Outcome State Fault Refusal := act s (quoteCmd src val)

/-- The flag word w3 of a quote (R370). -/
def quoteFlags (s : State) : Word :=
  let run := booted s
  wd (b2n s.sec.unstable * 32768 + b2n s.safe.on * 16384 + b2n (dmpLocked s) * 8192 + b2n (!run) * 4096
    + (if run then fld (nth s.boot.img 3) 15 14 else 0) * 1024 + s.boot.src.toNat * 256
    + b2n (run && s.boot.bankB && !s.boot.pushing) * 128 + b2n s.boot.fallback * 64 + s.sec.nonce.length)

/-- The words w0 to w71 that a quote signs (R370), with the configuration digest. -/
def quoteWords (digest : List Word) (s : State) : List Word :=
  [0x5154, 1, 0x139B, quoteFlags s] ++ (span 0 8).map (fun i => rg 0xC i s)
    ++ (span 0 16).map (fun i => nth s.sec.nonce i) ++ (span 0x10 16).map (fun i => rg 3 i s) ++ [rg 3 4 s, rg 3 5 s]
    ++ wordsOf 4 s.sec.g0 ++ (span 0 16).map (fun i => nth digest i) ++ wordsOf 2 s.sec.sootAt.toNat ++ wordsOf 4 s.sec.d

/-- The signature is made with the next index (R366, R369): the quote appears whole, QT_SEQ advances, STATE is DONE. -/
def quoteSign (s : State) : State :=
  if !quoteRuns s || !s.sec.signing then s
  else if 2 ^ 40 ≤ s.sec.next then quoteFail 1 s
  else
    let s1 := idxReserve s
    let sig := Config.xmssMtSign s.sec.words (BitVec.ofNat 40 s.sec.next)
    let s2 := setRgs 4 0x1000 (s.sec.words ++ (span 0 4947).map fun i => nth sig i) s1
    setRg 4 4 (rg 4 4 s2 + 1) (modSec (fun x => { x with
      state := 2, cause := 0, signing := false, next := x.next + 1 }) s2)

/-- QUOTE_SIGN_COMPLETE. -/
def execQuoteSignComplete (s : State) : Host.Outcome State Fault Refusal := act s quoteSign

/-- QT_STAT as read. -/
def qtStat (s : State) : Word := wd (s.sec.state * 8192 + s.sec.cause * 1024) ||| (rg 4 3 s &&& 0x80)

/-- SEC_STAT as read: KAT_OK and its own bits. -/
def secStat (s : State) : Word := wd (b2n s.sec.katOk * 32768) ||| (rg 4 0 s &&& 0x4080)

end Sys2Proof.Machine
end

