-- ==== Sys2Proof/Machine/BootCore.lean ====
section
/-! DEFINITION. The boot loader's image as it arrives: header and directory (R352 to R354), refusal (R362), pushes and
BT_CMD (R363). -/
namespace Sys2Proof.Machine
open Sys2Proof

/-- Change the boot loader's own state. -/
def modBoot (f : Boot → Boot) (s : State) : State := { s with boot := f s.boot }

/-- The number of records that a header names. -/
def imgNrec (img : List Word) : Nat := (nth img 6).toNat
/-- Words of header, directory and signature (R352). -/
def imgHead (img : List Word) : Nat := 64 + 24 * imgNrec img + 1410
/-- IMG_WORDS. -/
def imgWords (img : List Word) : Nat := valOf [nth img 7, nth img 8]
/-- IMG_VER. -/
def imgVer (img : List Word) : Nat := valOf [nth img 4, nth img 5]
/-- KEY_SLOT. -/
def imgSlot (img : List Word) : Nat := fld (nth img 3) 15 14
/-- PUBKEY. -/
def imgKey (img : List Word) : List Word := (span 11 34).map fun i => nth img i

/-- The header is in order (R353), and no longer than the bank or the push limit holds. -/
def headerOk (img : List Word) (limit : Nat) : Bool :=
  let w3 := nth img 3
  nth img 0 == 0x4B49 && nth img 1 == 0x4E44 && nth img 2 == 1 && !bit w3 12 && fld w3 7 0 == 0 &&
    !bit w3 (8 + imgSlot img) && decide (1 ≤ imgNrec img) && decide (imgNrec img ≤ 4096) &&
    decide (imgWords img ≤ limit) && (span 45 19).all fun i => nth img i == 0

/-- A directory entry (R354). -/
def dirEnt (img : List Word) (n : Nat) : List Word := (img.drop (64 + 24 * n)).take 24
/-- TYPE of an entry. -/
def entType (e : List Word) : Nat := fld (nth e 0) 15 8
/-- OFS of an entry. -/
def entOfs (e : List Word) : Nat := valOf [nth e 1, nth e 2]
/-- LEN of an entry. -/
def entLen (e : List Word) : Nat := valOf [nth e 3, nth e 4]
/-- TARGET of an entry. -/
def entTarget (e : List Word) : Nat := valOf [nth e 5, nth e 6]
/-- The entry's record is a register record. -/
def entIsReg (e : List Word) : Bool := entType e != 2 && entType e != 4

/-- A memory range lies in one of SRAM, GDDR6 or the deep store as the map lays them out (R228, R355). -/
def rangeIn (deep : Bool) (a n : Nat) : Bool :=
  if deep then decide (a + n ≤ 0x80000000)
  else (decide (0x10000000 ≤ a) && decide (a + n ≤ 0x12000000)) || (decide (0x80000000 ≤ a) && decide (a + n ≤ 2 ^ 32))

/-- TYPE, TARGET and LEN of an entry keep their row of *Table — record types* (R355). -/
def recEntOk (e : List Word) : Bool :=
  let t := entTarget e
  let n := entLen e
  let deep := bit (nth e 0) 0
  fld (nth e 0) 7 1 == 0 && nth e 7 == 0 && decide (1 ≤ n) && (!deep || entType e == 2) &&
    (!entIsReg e || decide (n ≤ 32767)) &&
    (match entType e with
     | 1 | 6 | 7 => t == 0 && n % 3 == 0
     | 2 => rangeIn deep t n
     | 3 => t &&& 0xFFFEFE00 == 0 && n == 128
     | 4 => t % 512 == 0 && n == 512 && rangeIn false t n
     | 5 => t &&& 0xFFFF00C0 == 0 && n % 3 == 0 && decide (t / 256 % 256 + n / 3 ≤ 256)
     | _ => false)

/-- The records of the directory follow one another without gap or overlap, from the first word behind the signature to the
last word of the image, and each is well formed (R352, R355). -/
def dirOk (img : List Word) : Bool :=
  let r := (span 0 (imgNrec img)).foldl
    (fun (a : Nat × Bool) n =>
      let e := dirEnt img n
      (a.1 + entLen e, a.2 && entOfs e == a.1 && recEntOk e)) (imgHead img, true)
  r.2 && r.1 == imgWords img

/-- The boot record in MRAM (R365): BOOTSEL, bank, causes, IMG_VER, in words 0x80D0 to 0x80D5. -/
def bootRecord (s : State) : State :=
  let b := s.boot
  doIf s.pwr.emberOk (mramPuts 0x80D0
    ([wd b.src.toNat, wd (b2n b.bankB), wd b.causeA.toNat, wd b.causeB.toNat] ++ wordsOf 2 (imgVer b.img))) s

/-- The image in hand is refused (R362): the cause, a reset of everything outside the ember domain but the loader's status,
the dynamic address and the flash discovery, BT_IMAGE; then the other bank, or FAILED, or WAITPUSH. Stage 1 is not run again:
its check stands and the SRAM is initialised here. -/
def bootRefuse (cause : Nat) (s : State) : State :=
  let b := s.boot
  let bB := b.bankB && !b.pushing
  let next := !b.pushing && !b.fallback && cause != 10
  let b1 : Boot := { b with
    causeA := if bB then b.causeA else BitVec.ofNat 4 cause
    causeB := if bB then BitVec.ofNat 4 cause else b.causeB
    stage := if next then 2 else if b.pushing then 9 else 10
    bankB := if next then !b.bankB else b.bankB
    fallback := b.fallback || next
    img := [], pushed := [], rec_ := [], rereads := 0 }
  let stat := rg 3 0 s
  let r6 := rg 3 6 s
  let sec0 := rg 4 0 s
  let s1 := deviceReset s
  let s2 : State := { s1 with
    boot := b1
    mem := s1.mem.filter fun c => decide (0x40000000 ≤ c.1)
    marks := []
    i3c := { s1.i3c with da := s.i3c.da }
    sec := { s1.sec with katOk := s.sec.katOk } }
  let s3 := setRg 4 0 (sec0 &&& 0x4000) (setRg 3 6 r6 (setRg 3 0 stat s2))
  raise 3 0 0 (bootRecord (doIf (!s3.pwr.safeN) (safeEnter 1 none) s3))

/-! ### The push window (R363) -/

/-- Words the push buffer holds. -/
def pushCap : Nat := 32768
/-- BT_PUSH_FREE. -/
def pushFree (s : State) : Nat := pushCap - s.boot.pushed.length

/-- BT_STAT.POVR. -/
def povr (s : State) : State := setRgBit 3 0 5 true s

/-- A pushed image is in progress. -/
def pushOn (s : State) : Bool := s.boot.pushing && ((s.boot.stage == 9 && !s.boot.img.isEmpty) || (3 ≤ s.boot.stage && s.boot.stage ≤ 7))

/-- The loader takes words from the push buffer until it has header, directory and signature (R352); a malformed header is
refused as soon as it is there. -/
def pushHead (s : State) : State :=
  let b := s.boot
  if b.stage != 9 then s
  else
    let all := b.img ++ b.pushed
    if all.length < 64 then modBoot (fun x => { x with img := all, pushed := [] }) s
    else if !headerOk all (2 ^ 27) then bootRefuse 2 s
    else
      let n := imgHead all
      modBoot (fun x => { x with
        img := all.take n, pushed := all.drop n, stage := if n ≤ all.length then 3 else 9 }) s

/-- A word arrives at the push window (R363). -/
def pushWord (src : Src) (val : Word) (s : State) : State :=
  let open_ := s.boot.stage == 9 || pushOn s
  if !open_ then povr s
  else if s.boot.pushSrc != some (srcNo src) || pushFree s = 0 then
    (let s1 := povr s
     if pushOn s then bootRefuse 9 s1 else s1)
  else pushHead (modBoot (fun x => { x with pushing := true, pushed := x.pushed ++ [val] }) s)

/-- BOOT_PUSH_WORD. -/
def execBootPushWord (src : Src) (val : Word) (s : State) : Host.Outcome State Fault Refusal := act s (pushWord src val)

/-- The loader waits for a pushed image from a source (R356, R363). -/
def waitPush (from_ : Nat) (s : State) : State :=
  modBoot (fun x => { x with
    stage := 9, pushing := true, pushSrc := some from_, img := [], pushed := [], rec_ := [], recNo := 0, rereads := 0 }) s

/-- A write of BT_CMD: RESTART and PUSH, in FAILED and WAITPUSH only. -/
def btCmd (src : Src) (val : Word) (s : State) : State :=
  if val ≠ 1 && val ≠ 2 then setRgBit 3 0 7 true s
  else if s.boot.stage != 9 && s.boot.stage != 10 then setRgBit 3 0 6 true s
  else if val = 2 then waitPush (srcNo src) s
  else bootBegin { s with boot := { src := s.boot.src, octal := s.boot.octal, capWords := s.boot.capWords } }

/-- BOOT_RESTART. -/
def execBootRestart (src : Src) (s : State) : Host.Outcome State Fault Refusal := act s (btCmd src 1)
/-- BOOT_PUSH_MODE. -/
def execBootPushMode (src : Src) (s : State) : Host.Outcome State Fault Refusal := act s (btCmd src 2)

/-- BT_STAT as read. -/
def btStat (s : State) : Word :=
  let b := s.boot
  wd (b.stage * 4096 + b.src.toNat * 1024 + b2n b.bankB * 512 + b2n b.fallback * 256 + b2n b.octal * 16) ||| (rg 3 0 s &&& 0xE0)
/-- BT_CAUSE as read. -/
def btCause (s : State) : Word := wd (s.boot.causeA.toNat * 16 + s.boot.causeB.toNat)

end Sys2Proof.Machine
end

