-- ==== Sys2Proof/Machine/FlueRegs.lean ====
section
/-! DEFINITION. The commands of the flue ports that move no data of the fabric (R272 to R290): enabling, bring-up,
retraining, acknowledgement and replay, time alignment, remote operations, isolation. -/
namespace Sys2Proof.Machine
open Sys2Proof

/-- FL_STAT of port p. -/
def flStat (p : Nat) (s : State) : Word := rg (bFl p) 1 s
/-- Set or clear a bit of FL_STAT. -/
def setFlStat (p i : Nat) (b : Bool) (s : State) : State := setRgBit (bFl p) 1 i b s
/-- BADW of the registers that port 0 alone has. -/
def flgBadw (s : State) : State := setRgBit 0x14 0x101 7 true s

/-- RESTORE (R278): every lane in service, not retired, and bring-up starts again where the port is enabled. -/
def flRestore (p : Nat) (s : State) : State :=
  flStart p (setFlStat p 12 false (setRgFld (bFl p) 1 11 8 0xF (flDown p s)))

/-- A write of FL_CTL (R272, R277, R278): RETRY_MAX 0 is reserved. -/
def flCtlWrite (p : Nat) (val : Word) (s : State) : State :=
  let old := rg (bFl p) 0 s
  let bad := fld val 3 0 == 0
  let s1 := doIf bad (setFlStat p 7 true)
    (setRg (bFl p) 0 (wd (b2n (bit val 15) * 32768 + (if bad then fld old 3 0 else fld val 3 0))) s)
  if bit val 13 then flRestore p s1
  else if !bit val 15 then modFlue p (fun f => { f with bringup := false }) (flDown p s1)
  else if bit val 14 then flRetrain p s1
  else if flUp p s1 || (flue p s1).bringup then s1
  else flStart p s1

/-- FLUE_PORT_ENABLE. -/
def execFluePortEnable (src : Src) (p : PortNo) (val : Word) (s : State) : Host.Outcome State Fault Refusal :=
  actWrite src (ra (bFl p.toNat) 0) val s (flCtlWrite p.toNat val)

/-- FLUE_RETRAIN: FL_CTL is written with RETRAIN = 1, its other fields as they are. -/
def execFlueRetrain (src : Src) (p : PortNo) (s : State) : Host.Outcome State Fault Refusal :=
  let v := rg (bFl p.toNat) 0 s ||| 0x4000
  actWrite src (ra (bFl p.toNat) 0) v s (flCtlWrite p.toNat v)

/-- FLUE_RESTORE: FL_CTL is written with RESTORE = 1, its other fields as they are. -/
def execFlueRestore (src : Src) (p : PortNo) (s : State) : Host.Outcome State Fault Refusal :=
  let v := rg (bFl p.toNat) 0 s ||| 0x2000
  actWrite src (ra (bFl p.toNat) 0) v s (flCtlWrite p.toNat v)

/-- Lanes named by four bits. -/
def laneCount (v : Nat) : Nat := ((span 0 4).filter fun k => v / 2 ^ k % 2 == 1).length

/-- Bring-up ends (R272): the neighbour's number, the lanes that locked here and those in service there. A lane that does not
lock is retired (R278). -/
def flBroughtUp (p : Nat) (nbr : DevNo) (locked far : BitVec 4) (s : State) : State :=
  if !(flue p s).bringup then s
  else
    let ok := fld (flStat p s) 11 8 &&& locked.toNat
    let s1 := setRgFld (bFl p) 1 11 8 ok s
    let s2 := setRg (bFl p) 2 (wd (0x8000 + nbr.toNat)) s1
    if ok = 0 then flRetire p s1
    else if nbr.toNat = devNum s then
      raise (bFl p) 0 0 (setFlStat p 6 true (modFlue p (fun f => { f with bringup := false }) s2))
    else
      let n := min (laneCount ok) (laneCount far.toNat)
      if n = 0 then s1
      else
        let w := if 4 ≤ n then 2 else if 2 ≤ n then 1 else 0
        forAll (span 0 4) flStranded (flPump p (modFlue p (fun f => { f with bringup := false, tries := 0 })
          (setFlStat p 15 true (setRgFld (bFl p) 1 14 13 w s2))))

/-- FLUE_BRINGUP_COMPLETE. -/
def execFlueBringupComplete (p : PortNo) (nbr : DevNo) (locked far : BitVec 4) (s : State) :
    Host.Outcome State Fault Refusal :=
  act s (flBroughtUp p.toNat nbr locked far)

/-- A try of bring-up has taken more than 50 µs (R272): the fourth in a row sets TRAINF and retires the port. -/
def flTryOver (p : Nat) (s : State) : State :=
  if !(flue p s).bringup then s
  else if (flue p s).tries < 3 then modFlue p (fun f => { f with tries := f.tries + 1 }) s
  else flRetire p (setFlStat p 4 true s)

/-- FLUE_BRINGUP_TIMEOUT. -/
def execFlueBringupTimeout (p : PortNo) (s : State) : Host.Outcome State Fault Refusal := act s (flTryOver p.toNat)

/-- A write of ID_DEVNUM (R273). -/
def devnumWrite (val : Word) (s : State) : State :=
  if (span 0 4).any fun p => bit (rg (bFl p) 0 s) 15 then setRgBit 0x14 0x101 6 true s
  else setRg 0xC 3 (wd (fld val 11 0)) s

/-- DEVNUM_WRITE. -/
def execDevnumWrite (src : Src) (val : Word) (s : State) : Host.Outcome State Fault Refusal :=
  actWrite src (ra 0xC 3) val s (devnumWrite val)

/-! ### Acknowledgement and replay (R275 to R277) -/

/-- The packets of a replay buffer behind the one with a SEQ; all of them when none has it. -/
def afterSeq (seq : BitVec 12) (r : List TxPacket) : List TxPacket :=
  if r.any fun t => t.p.seq == seq then (r.dropWhile fun t => t.p.seq != seq).drop 1 else r

/-- An ACK block (R275, R276): what it acknowledges leaves the replay buffer, credits return. -/
def flAck (p : Nat) (seq : BitVec 12) (reqCr cplCr : BitVec 6) (s : State) : State :=
  if !flUp p s then s
  else flPump p (modFlue p (fun f =>
    let r := afterSeq seq f.replay
    { f with
      replay := r, replays := if r.length < f.replay.length then 0 else f.replays
      reqCr := min 32 (f.reqCr + reqCr.toNat), cplCr := min 32 (f.cplCr + cplCr.toNat) }) s)

/-- FLUE_ACK. -/
def execFlueAck (p : PortNo) (seq : BitVec 12) (reqCr cplCr : BitVec 6) (s : State) : Host.Outcome State Fault Refusal :=
  act s (flAck p.toNat seq reqCr cplCr)

/-- A NAK block with the expected SEQ (R277): what was sent before it has been accepted; the rest is replayed. -/
def flNak (p : Nat) (seq : BitVec 12) (s : State) : State :=
  if !flUp p s || !(flue p s).replay.any (fun t => t.p.seq == seq) then s
  else flReplay p seq (modFlue p (fun f => { f with replay := f.replay.dropWhile fun t => t.p.seq != seq }) s)

/-- FLUE_NAK. -/
def execFlueNak (p : PortNo) (seq : BitVec 12) (s : State) : Host.Outcome State Fault Refusal := act s (flNak p.toNat seq)

/-- FLUE_REPLAY_TIMEOUT: the oldest unacknowledged packet has waited 1 µs (R277). -/
def flReplayDue (p : Nat) (s : State) : State :=
  match (flue p s).replay with
  | [] => s
  | t :: _ => if flUp p s then flReplay p t.p.seq s else s

/-- FLUE_REPLAY_TIMEOUT. -/
def execFlueReplayTimeout (p : PortNo) (s : State) : Host.Outcome State Fault Refusal := act s (flReplayDue p.toNat)

/-- The port acknowledges what it has accepted, and returns the credits of what it has freed (R275, R276). -/
def flSendAck (p : Nat) (s : State) : State :=
  modFlue p (fun f => { f with
    ackSent := some (f.rxSeq - 1, f.freeReq, f.freeCpl), unacked := 0, freeReq := 0, freeCpl := 0 }) s

/-- FLUE_ACK_TIMER. -/
def execFlueAckTimer (p : PortNo) (s : State) : Host.Outcome State Fault Refusal :=
  act s fun t => if (flue p.toNat t).unacked = 0 || !flUp p.toNat t then t else flSendAck p.toNat t

/-- A packet of a class with the next SEQ has been accepted on port p, and its place is free again: an ACK at least every 16
packets (R275, R276). -/
def flAccept (p : Nat) (cpl : Bool) (s : State) : State :=
  let s1 := modFlue p (fun f => { f with
    rxSeq := f.rxSeq + 1, unacked := f.unacked + 1
    freeReq := f.freeReq + b2n !cpl, freeCpl := f.freeCpl + b2n cpl }) (count (bFl p) 0x12 s)
  if 16 ≤ (flue p s1).unacked then flSendAck p s1 else s1

/-- A packet is rejected (R274, R277): a failed CRC or a wrong SEQ is answered with a NAK; a malformed packet has passed its
CRC and is dropped. `cpl`: its class, as bit [15] of its header has it (R274). -/
def flReject (p : Nat) (kind : BadPkt) (cpl : Bool) (s : State) : State :=
  if !flUp p s then s
  else
    match kind with
    | .crc => modFlue p (fun f => { f with nakSent := some f.rxSeq }) (count (bFl p) 0x14 s)
    | .order => modFlue p (fun f => { f with nakSent := some f.rxSeq }) s
    | .malformed => count (bFl p) 0x1C (flAccept p cpl s)

/-- FLUE_PACKET_REJECTED. -/
def execFluePacketRejected (p : PortNo) (x : BadArrival) (s : State) : Host.Outcome State Fault Refusal :=
  act s (flReject p.toNat x.kind x.cpl)

/-! ### Loss and containment (R279, R280, R289, R290) -/

/-- FLUE_LINK_DOWN: the port loses its link and retrains. -/
def execFlueLinkDown (p : PortNo) (s : State) : Host.Outcome State Fault Refusal :=
  act s fun t => if flUp p.toNat t then flRetrain p.toNat t else t

/-- The neighbour is hung (R289). -/
def flHung (p : Nat) (s : State) : State :=
  if !flUp p s || ((flue p s).replay.isEmpty && (flue p s).waiting.isEmpty) then s
  else flRetrain p (raise (bFl p) 2 0 (setFlStat p 5 true s))

/-- FLUE_NEIGHBOUR_HUNG. -/
def execFlueNeighbourHung (p : PortNo) (s : State) : Host.Outcome State Fault Refusal := act s (flHung p.toNat)

/-- A write of FL_GCTL (R286, R290): ISOLATE holds every port down; when it ends, enabled ports start bring-up. -/
def flGctlWrite (val : Word) (s : State) : State :=
  let was := isolated s
  let s1 := setRg 0x14 0x100 (val &&& 0xFC00) s
  if bit val 15 then
    forAll (span 0 4) (fun p t => modFlue p (fun f => { f with bringup := false }) (flDown p t)) s1
  else if was then forAll (span 0 4) flStart s1
  else s1

/-- FLUE_ISOLATE. -/
def execFlueIsolate (src : Src) (val : Word) (s : State) : Host.Outcome State Fault Refusal :=
  actWrite src (ra 0x14 0x100) val s (flGctlWrite val)

/-! ### Time alignment (R286 to R288) -/

/-- Port p is the upstream port of a follower. -/
def isUpport (p : Nat) (s : State) : Bool := follows s && fld (rg 0x14 0x100 s) 12 11 == p

/-- Port p is the upstream port of another device's exchanges: this device is the root, or follows on another port. -/
def timeServes (p : Nat) (s : State) : Bool :=
  flUp p s && !isUpport p s && (bit (rg 0x14 0x100 s) 14 || follows s)

/-- An interval ends: on a follower's port `lost` when it passed without a completed exchange, eight of which in a row set
TLOST (R288); an upstream port sends a TIME block stamped t1 (R286). -/
def flInterval (p : Nat) (lost : Bool) (t1 : W64) (s : State) : State :=
  if timeServes p s then modFlue p (fun f => { f with timeT1 := some t1 }) (reachFine t1.toNat s)
  else if !isUpport p s || !lost then s
  else
    let s1 := modFlue p (fun f => { f with lostRun := f.lostRun + 1 }) s
    if (flue p s1).lostRun = 8 then
      raise 0x14 5 0 (setRgBit 0x14 0x101 13 true { s1 with ft := { s1.ft with slew := 0 } })
    else s1

/-- FLUE_TIME_EXCHANGE. -/
def execFlueTimeExchange (p : PortNo) (x : TimeTry) (s : State) : Host.Outcome State Fault Refusal :=
  act s (flInterval p.toNat x.lost x.t1)

/-- An upstream port stamps the arrival t4 of the follower's TIME block and returns t1 and t4 in a further one (R286). -/
def timeReturn (p : Nat) (t4 : W64) (s : State) : State :=
  match timeServes p s, (flue p s).timeT1 with
  | true, some t1 => modFlue p (fun f => { f with timeT1 := none, timeBack := some (t1, t4) }) (reachFine t4.toNat s)
  | _, _ => s

/-- A completed exchange (R286, R287): theta, delay, the drift term; the DTB is loaded, or slewed over the next interval. -/
def flTime (p : Nat) (t1 t2 t3 t4 : W64) (s : State) : State :=
  if !isUpport p s then timeReturn p t4 s
  else
    let a : Int := (t2.toNat : Int) - t1.toNat
    let b : Int := (t4.toNat : Int) - t3.toNat
    let theta := (a - b).tdiv 2 - sx 16 (rg (bFl p) 4 s).toNat
    let delay := (a + b).tdiv 2
    let fr := (flue p s).fr + theta.tdiv 4
    let ivl := 1000 * fld (rg 0x14 0x102 s) 9 0
    let limit : Int := (ivl / 128 : Nat)
    let steps := max (-limit) (min limit (-(theta + fr)))
    let still := !s.ft.running && !s.ft.waiting
    let far := decide (16000 < theta.natAbs)
    let run := if theta.natAbs ≤ 4 then (flue p s).lockRun + 1 else 0
    let s1 := modFlue p (fun f => { f with
      timeT3 := some t3, fr := if still && far then 0 else fr, lockRun := run, lostRun := 0 }) s
    let s2 := setRgs (bFl p) 0x42 (wordsOf 2 (tc 32 delay)) (setRgs (bFl p) 0x40 (wordsOf 2 (tc 32 theta)) s1)
    let s3 := setRgBit 0x14 0x101 15 (decide (8 ≤ run))
      (setRgBit 0x14 0x101 14 (!still && far) (setRgBit 0x14 0x101 13 false s2))
    if still && far then
      let at_ := ((16 * s.ft.dtb + s.ft.fine : Nat) : Int) - theta
      modFt (fun f => { f with
        dtb := tc 64 (at_ / 16), fine := (at_ % 16).toNat, slew := 0, slewN := 0, slewAt := 0 }) s3
    else modFt (fun f => { f with slew := steps, slewN := ivl, slewAt := 0 }) s3

/-- FLUE_TIME_BLOCK. -/
def execFlueTimeBlock (p : PortNo) (t1 t2 t3 t4 : W64) (s : State) : Host.Outcome State Fault Refusal :=
  act s (flTime p.toNat t1 t2 t3 t4)

/-- One gc passes on the DTB: 16 fine steps, one more or one less in |slew| gc spread evenly over the interval (R22,
R286). -/
def gcPass (s : State) : State :=
  modFt (fun f =>
    let n := f.slewN
    let k := f.slewAt
    let m := f.slew.natAbs
    let extra : Nat := if k < n then (k + 1) * m / n - k * m / n else 0
    let adv : Nat := if f.slew < 0 then 16 - extra else 16 + extra
    { f with dtb := (f.dtb + (f.fine + adv) / 16) % 2 ^ 64, fine := (f.fine + adv) % 16, slewAt := if k < n then k + 1 else k }) s

/-! ### The remote operation port (R285) -/

/-- A source's remote-operation record. -/
def rop (src : Src) (s : State) : Rop := mget {} (srcNo src) s.rops
/-- Change it. -/
def modRop (src : Src) (f : Rop → Rop) (s : State) : State := { s with rops := mmod {} (srcNo src) f s.rops }

/-- The answer to a source's remote operation is no longer awaited. -/
def ropForget (src : Src) (s : State) : State :=
  { s with outst := s.outst.filter fun kv => match kv.2 with | .op w => w != srcNo src | _ => true }

/-- A write to ROP_W0 to ROP_W3 (R285): one 4-word write issues; a narrower one is MALFORMED. An operation on this device
itself is done here (R279). -/
def ropIssue (src : Src) (op dev addr : Nat) (parm : Word) (narrow : Bool) (s : State) : State :=
  if narrow then
    modRop src (fun r => { r with pend := false, none := false, flerr := 0, op := 0, res := BitVec.ofNat 4 resMalformed })
      (ropForget src s)
  else if (rop src s).pend then setRgBit 0x14 0x101 5 true s
  else
    let sub := (rop src s).sub.toNat
    if dev = devNum s then
      let r := operate op sub addr parm 0 s
      modRop src (fun x => { x with
        none := false, flerr := 0, op := BitVec.ofNat 4 op, res := BitVec.ofNat 4 r.1 }) r.2
    else
      flOperate dev op sub addr parm (.op (srcNo src)) (modRop src (fun x => { x with
        pend := true, none := false, flerr := 0, op := BitVec.ofNat 4 op, res := 0 }) s)

/-- REMOTE_OPERATION_ISSUE. -/
def execRemoteOperationIssue (src : Src) (op : BitVec 4) (dev : DevNo) (addr : W32) (parm : Word) (narrow : Bool)
    (s : State) : Host.Outcome State Fault Refusal :=
  act s (ropIssue src op.toNat dev.toNat addr.toNat parm narrow)

/-- No OPCPL has come in 2 µs (R285). -/
def ropTimeout (src : Src) (s : State) : State :=
  if (rop src s).pend then modRop src (fun r => { r with pend := false, flerr := 2 }) (ropForget src s) else s

/-- REMOTE_OPERATION_TIMEOUT. -/
def execRemoteOperationTimeout (src : Src) (s : State) : Host.Outcome State Fault Refusal := act s (ropTimeout src)

/-- ROP_RES as a source reads it. -/
def ropRes (src : Src) (s : State) : Word :=
  let r := rop src s
  wd (b2n r.pend * 32768 + b2n r.none * 16384 + r.flerr.toNat * 4096 + r.op.toNat * 256 + r.res.toNat)

/-- With no command waiting the block idles (DESIGN CHOICE): it works off what it still owes, and one gc passes on the DTB
while the timebase runs (R21). The queue of commands stays. -/
def idle (s : State) : State :=
  let t := settle fuel s
  { (if up t && !t.pwr.tbLost then gcPass t else t) with pending := s.pending }

end Sys2Proof.Machine
end

