-- ==== Sys2Proof/Machine/Operands.lean ====
section
/-! DEFINITION. The stoker's registers as instructions name them (R143), and every operand form: register pairs under WIDE
(R115), EA specifiers (R144, R145), and the encoded lengths of operands (R142). -/
namespace Sys2Proof.Machine
open Sys2Proof

/-- Data register Dn. -/
def getD (n : Nat) (c : Ctx) : Word := mget 0 n c.r
/-- Write Dn. -/
def setD (n : Nat) (v : Word) (c : Ctx) : Ctx := { c with r := mset 0 n v c.r }
/-- Address register An. -/
def getA (n : Nat) (c : Ctx) : Word := mget 0 (0x10 + n) c.r
/-- Write An. -/
def setA (n : Nat) (v : Word) (c : Ctx) : Ctx := { c with r := mset 0 (0x10 + n) v c.r }
/-- FLAGS. -/
def getF (c : Ctx) : Word := mget 0 0x1D c.r
/-- Write FLAGS as hardware does. -/
def setF (v : Word) (c : Ctx) : Ctx := { c with r := mset 0 0x1D v c.r }
/-- Accumulator Ek. -/
def getE (k : Nat) (c : Ctx) : W64 := mget 0 k c.e
/-- Write Ek. -/
def setE (k : Nat) (v : W64) (c : Ctx) : Ctx := { c with e := mset 0 k v c.e }

/-- The operand of a data register: Dn, or the pair Dn, Dn+1 under WIDE (R115). -/
def getDw (wide : Bool) (n : Nat) (c : Ctx) : Nat :=
  if wide then (getD n c).toNat * 65536 + (getD (n + 1) c).toNat else (getD n c).toNat

/-- Write a data register or the pair it heads. -/
def setDw (wide : Bool) (n v : Nat) (c : Ctx) : Ctx :=
  if wide then setD (n + 1) (wd v) (setD n (wordOf 2 0 v) c) else setD n (wd v) c

/-- A write of FLAGS by software (R117): a reserved FRM is left unchanged; whether it was. -/
def writeF (v : Word) (c : Ctx) : Ctx × Bool :=
  let v1 := v &&& 0xFFEF
  if 4 < fld v 15 13 then (setF (setFld v1 15 13 (fld (getF c) 15 13)) c, true) else (setF v1 c, false)

/-- Change the top loop entry; discarded when there is none (R118). -/
def putLoop (f : LoopEnt → LoopEnt) (c : Ctx) : Ctx × Bool :=
  match c.loops with
  | [] => (c, true)
  | l :: ls => ({ c with loops := f l :: ls }, false)

/-- The register of an XR code (R143). -/
def getX (x : Nat) (c : Ctx) : Word :=
  let top : LoopEnt := c.loops.headD ⟨0, 0, 0⟩
  if x = 0x1E then top.lc
  else if x = 0x28 then wd (top.ls.toNat / 65536)
  else if x = 0x29 then wd top.ls.toNat
  else if x = 0x2A then wd (top.le.toNat / 65536)
  else if x = 0x2B then wd top.le.toNat
  else mget 0 x c.r

/-- Write the register of an XR code; whether STK_STAT.BADW is set (R117, R118, R151). -/
def setX (x : Nat) (v : Word) (c : Ctx) : Ctx × Bool :=
  let hi (a : BitVec 24) : BitVec 24 := BitVec.ofNat 24 (v.toNat % 256 * 65536 + a.toNat % 65536)
  let lo (a : BitVec 24) : BitVec 24 := BitVec.ofNat 24 (a.toNat / 65536 * 65536 + v.toNat)
  if x = 0x1D then writeF v c
  else if x = 0x1E then putLoop (fun l => { l with lc := v }) c
  else if x = 0x28 then putLoop (fun l => { l with ls := hi l.ls }) c
  else if x = 0x29 then putLoop (fun l => { l with ls := lo l.ls }) c
  else if x = 0x2A then putLoop (fun l => { l with le := hi l.le }) c
  else if x = 0x2B then putLoop (fun l => { l with le := lo l.le }) c
  else ({ c with r := mset 0 x v c.r }, false)

/-- A reserved XR code (R143, R151). -/
def xrBad (x : Nat) : Bool := x == 0x1F || decide (0x2C ≤ x)
/-- A register only the multiplier and divider write (R151). -/
def xrUnit (x : Nat) : Bool := decide (0x20 ≤ x) && decide (x ≤ 0x27)
/-- A special register (R143). -/
def xrSpecial (x : Nat) : Bool := (decide (0x18 ≤ x) && decide (x ≤ 0x1E)) || (decide (0x28 ≤ x) && decide (x ≤ 0x2B))
/-- A data register's code. -/
def xrData (x : Nat) : Bool := decide (x < 16)

/-! ### EA specifiers -/

/-- Bytes of an EA specifier: the mode byte and its extension (R144). -/
def eaLen : EA → Nat
  | .ind _ | .postInc _ | .preDec _ => 1
  | .disp8 _ _ | .index _ _ => 2
  | .disp16 _ _ | .reg _ => 3
  | .abs _ => 5

/-- The EA goes through an A register: modes 0x0 to 0x5 (R145). -/
def eaBanked : EA → Bool
  | .abs _ | .reg _ => false
  | _ => true

/-- The bank register number an access through An uses: the prefix, or ABS (R116, R145). -/
def bankNo (i : Iss) (n : Nat) (c : Ctx) : Nat :=
  match i.bank with
  | some k => k.toNat
  | none => fld (mget 0 0x1C c.r) (2 * n + 1) (2 * n)

/-- Word addresses of w words from offset o through An (R116): the offset wraps and never carries into the bank. -/
def bankAddrs (i : Iss) (n o w : Nat) (c : Ctx) : List Nat :=
  (span 0 w).map fun j => (mget 0 (0x18 + bankNo i n c) c.r).toNat * 65536 + (o + j) % 65536

/-- The A register and displacement of an EA that goes through one, with no update. -/
def eaOffset : EA → Ctx → Option (Nat × Nat)
  | .ind n, _ | .postInc n, _ | .preDec n, _ => some (n.toNat, 0)
  | .disp8 n d, _ => some (n.toNat, tc 16 (sx 8 d.toNat))
  | .disp16 n d, _ => some (n.toNat, d.toNat)
  | .index n k, c => some (n.toNat, (getD k.toNat c).toNat)
  | .abs _, _ | .reg _, _ => none

/-- Evaluate an EA for w words: the word addresses, and the context with the An update of mode 0x1 or 0x2 (R144). -/
def eaEval (i : Iss) (e : EA) (w : Nat) (c : Ctx) : List Nat × Ctx :=
  match e with
  | .abs a => ((span 0 w).map fun j => (a.toNat + j) % 2 ^ 32, c)
  | .reg d => ((span 0 w).map fun j => 0x40000 + (d.toNat + j) % 65536, c)
  | .postInc n => (bankAddrs i n.toNat (getA n.toNat c).toNat w c, setA n.toNat (getA n.toNat c + wd w) c)
  | .preDec n =>
    let c1 := setA n.toNat (getA n.toNat c - wd w) c
    (bankAddrs i n.toNat (getA n.toNat c1).toNat w c1, c1)
  | .ind n => (bankAddrs i n.toNat (getA n.toNat c).toNat w c, c)
  | .disp8 n d => (bankAddrs i n.toNat ((getA n.toNat c).toNat + tc 16 (sx 8 d.toNat)) w c, c)
  | .disp16 n d => (bankAddrs i n.toNat ((getA n.toNat c).toNat + d.toNat) w c, c)
  | .index n k => (bankAddrs i n.toNat ((getA n.toNat c).toNat + (getD k.toNat c).toNat) w c, c)

/-- Words of an operand: 1, or 2 under WIDE. -/
def width (i : Iss) : Nat := if i.wide then 2 else 1
/-- Bits of an operand. -/
def widthBits (i : Iss) : Nat := if i.wide then 32 else 16

/-- An odd register where WIDE requires an even one. -/
def oddW (i : Iss) (n : BitVec 4) : Bool := i.wide && n.toNat % 2 == 1

/-- Bytes of the source operand of rows 3, 4 and 5, the register byte included (R149, R150). -/
def aluLen (i : Iss) : AluSrc → Nat
  | .reg _ => 1
  | .imm _ => if i.wide then 5 else 3
  | .mem e => 1 + eaLen e

/-- The memory operand of a source goes through an A register. -/
def aluBanked : AluSrc → Bool
  | .mem e => eaBanked e
  | _ => false

end Sys2Proof.Machine
end

