-- ==== Sys2Proof/Machine/StkRegs.lean ====
section
/-! DEFINITION. The stoker's own registers: code segments and the instruction cache (R119 to R121), the context state window
(R135), debug stop and step (R137). -/
namespace Sys2Proof.Machine
open Sys2Proof

/-- STK_STAT.BADW. -/
def stkBadw (k : Nat) (s : State) : State := setRgBit (bStk k) 1 7 true s

/-! ### Code segments and the instruction cache -/

/-- The word address of code byte b (R119), when its segment is mapped. -/
def codeWord (k b : Nat) (s : State) : Option Nat :=
  let n := b / 2 ^ 20 % 16
  let w1 := rg (bStk k) (0x101 + 2 * n) s
  if bit w1 0 then some ((rg (bStk k) (0x100 + 2 * n) s).toNat * 65536 + fld w1 15 10 * 1024 + b % 2 ^ 20 / 2) else none

/-- Why a code word cannot be fetched (R120): its segment is not mapped, or its target holds no code. -/
def codeFault (k b : Nat) (s : State) : Option Nat :=
  match codeWord k b s with
  | none => some 0x08
  | some a => match place (some (fbxOf k)) none a s with
    | .mem _ => none
    | _ => some 0x09

/-- Every line of the cache is invalid (R121). -/
def icInvalidate (k : Nat) (s : State) : State := modStk k (fun x => { x with ic := [] }) s

/-- Key of a line in a way: 64 lines each (R121). -/
def icKey (way b : Nat) : Nat := way * 64 + b / 64 % 64

/-- A valid line that holds code byte b. -/
def icFind (k b : Nat) (s : State) : Option IcLine :=
  ((stk k s).ic.find? fun kv => kv.2.base == b / 64 * 64).map fun kv => kv.2

/-- Read the 32 words of the line of code byte b: none where one cannot be fetched, or has an uncorrectable error. -/
def icRead (k b : Nat) (s : State) : Option (List Word) × State :=
  let base := b / 64 * 64
  match codeWord k base s with
  | none => (none, s)
  | some a =>
    match placeRun (some (fbxOf k)) none a 32 s with
    | none => (none, s)
    | some ks =>
      let r := memReadKeys ks s
      (if r.2.1 then none else some r.1, r.2.2)

/-- Fill the line of code byte b into a way; a line that cannot be fetched stays invalid (R121). -/
def icFill (k b way : Nat) (s : State) : State :=
  let r := icRead k b s
  modStk k (fun x => { x with ic :=
    match r.1 with
    | some ws => mput (icKey way b) { base := b / 64 * 64, words := ws } x.ic
    | none => merase (icKey way b) x.ic }) r.2

/-- A running context needs the line: it holds a byte of the instruction at its PC. -/
def needsLine (k line : Nat) (s : State) : Option Nat :=
  match (stk k s).cur with
  | none => none
  | some c =>
    let x := ctx (16 * k + c) s
    if x.run == .running && x.stall == .none && (x.pc.toNat / 64 * 64 == line || (x.pc.toNat + 13) % 2 ^ 24 / 64 * 64 == line) then
      some (16 * k + c) else none

/-- Contexts of stoker k that stall on the line. -/
def lineWaits (k line : Nat) (s : State) : List Nat :=
  (span (16 * k) 16).filter fun sub => (ctx sub s).stall == .code line

/-- The line is not in the stoker's own firebox: its miss is a long stall (R112). -/
def lineFar (k line : Nat) (s : State) : Bool :=
  match (codeWord k line s).map fun a => place (some (fbxOf k)) none a s with
  | some (.mem m) => !(decide (0x11000000 ≤ m) && decide (m < 0x12000000) && (m - 0x11000000) / 0x40000 == fbxOf k)
  | _ => false

/-- A miss (R112, R121): counted, a parity miss too. The running context that needs the line stalls until a second such
command, the arrival of the line; a line that none needs is filled at once. A locked way is never replaced. -/
def icMiss (k b way : Nat) (par : Bool) (s : State) : State :=
  let line := b / 64 * 64
  let locked := bit (rg (bStk k) 2 s) way
  let fill (t : State) : State := if locked then t else icFill k b way t
  match lineWaits k line s with
  | sub :: rest => forAll (sub :: rest) unstall (fill s)
  | [] =>
    if (icFind k b s).isSome && !par then s
    else
      let s1 := count (bStk k) 0xE (modStk k (fun x => { x with ic := x.ic.filter fun kv => kv.2.base != line }) s)
      match needsLine k line s with
      | some sub => stallRun sub (lineFar k line s) (modCtx sub (fun x => { x with stall := .code line }) s1)
      | none => fill s1

/-- ICACHE_LINE_FILL. -/
def execIcacheLineFill (stk : StokerNo) (addr : BitVec 24) (way : BitVec 2) (par : Bool) (s : State) :
    Host.Outcome State Fault Refusal :=
  act s (icMiss stk.toNat addr.toNat way.toNat par)

/-- A write of IC_INV: 0x0001 invalidates every line; other values are reserved. -/
def icInvWrite (k : Nat) (val : Word) (s : State) : State := if val = 1 then icInvalidate k s else stkBadw k s

/-- IC_INV. -/
def execIcInv (_src : Src) (stk : StokerNo) (val : Word) (s : State) : Host.Outcome State Fault Refusal :=
  act s (icInvWrite stk.toNat val)

/-- A write of a CODEMAP register: it stores, and invalidates every line (R121). -/
def codemapWrite (k ofs : Nat) (val : Word) (s : State) : State :=
  icInvalidate k (setRg (bStk k) (0x100 + ofs) (if ofs % 2 = 0 then val else val &&& 0xFC01) s)

/-- CODEMAP_WRITE. -/
def execCodemapWrite (src : Src) (stk : StokerNo) (ofs : BitVec 5) (val : Word) (s : State) :
    Host.Outcome State Fault Refusal :=
  actWrite src (ra (bStk stk.toNat) (0x100 + ofs.toNat)) val s (codemapWrite stk.toNat ofs.toNat val)

/-- A write of IC_PRELOAD1 fills the line at ADDR into WAY (R121). -/
def icPreload (k : Nat) (val : Word) (s : State) : State :=
  let hi := rg (bStk k) 4 s
  icFill k (fld hi 7 0 * 65536 + (val &&& 0xFFC0).toNat) (fld hi 15 14) s

/-- IC_PRELOAD. -/
def execIcPreload (_src : Src) (stk : StokerNo) (val : Word) (s : State) : Host.Outcome State Fault Refusal :=
  act s (icPreload stk.toNat val)

/-! ### The context state window (R135) -/

/-- The context as it stands at its most recent committed instruction boundary. -/
def ctxCommitted (sub : Nat) (s : State) : Ctx :=
  match specOf sub s with
  | some p => p.ckpt
  | none =>
    match s.loads.find? fun kv => kv.1 == sub with
    | some (_, e) => e.before
    | none => ctx sub s

/-- A word of a loop entry: LC, LS and LE in two words each. -/
def loopWord (l : LoopEnt) (j : Nat) : Word :=
  [l.lc, wd (l.ls.toNat / 65536), wd l.ls.toNat, wd (l.le.toNat / 65536), wd l.le.toNat].getD j 0

/-- A loop entry with one word replaced. -/
def loopPut (l : LoopEnt) (j : Nat) (v : Word) : LoopEnt :=
  let hi (a : BitVec 24) : BitVec 24 := BitVec.ofNat 24 (v.toNat % 256 * 65536 + a.toNat % 65536)
  let lo (a : BitVec 24) : BitVec 24 := BitVec.ofNat 24 (a.toNat / 65536 * 65536 + v.toNat)
  if j = 0 then { l with lc := v }
  else if j = 1 then { l with ls := hi l.ls }
  else if j = 2 then { l with ls := lo l.ls }
  else if j = 3 then { l with le := hi l.le }
  else if j = 4 then { l with le := lo l.le }
  else l

/-- Offset o of the context state window as read. -/
def ctxWinRead (sub o : Nat) (s : State) : Word :=
  let c := ctxCommitted sub s
  if o ≤ 0x1D then mget 0 o c.r
  else if o = 0x1E then wd (c.pc.toNat / 65536)
  else if o = 0x1F then wd c.pc.toNat
  else if o ≤ 0x2F then wordOf 4 (o % 4) (getE ((o - 0x20) / 4) c).toNat
  else if o ≤ 0x37 then mget 0 (o - 0x10) c.r
  else if o ≤ 0x4F then
    (match c.loops[(o - 0x38) / 6]? with | some l => loopWord l ((o - 0x38) % 6) | none => 0)
  else if o = 0x50 then wd (b2n c.rep.isSome * 256 + c.loops.length)
  else if o = 0x51 then wd (c.rep.getD c.repEnd)
  else 0

/-- DEPTH loop entries: more are new ones at the bottom, all 0. -/
def loopsOf (n : Nat) (ls : List LoopEnt) : List LoopEnt := ls.take n ++ List.replicate (n - ls.length) ⟨0, 0, 0⟩

/-- Replace the i-th entry of a list, when there is one. -/
def listPut {α : Type} (i : Nat) (f : α → α) (l : List α) : List α := l.mapIdx fun j x => if j = i then f x else x

/-- A context with offset o of its window replaced; whether the value was reserved. -/
def ctxWinPut (o : Nat) (v : Word) (c : Ctx) : Ctx × Bool :=
  if o = 0x1D then writeF v c
  else if o < 0x1D then ({ c with r := mset 0 o v c.r }, false)
  else if o = 0x1E then ({ c with
    pc := BitVec.ofNat 24 (v.toNat % 256 * 65536 + c.pc.toNat % 65536), waitNext := none, got := [] }, false)
  else if o = 0x1F then ({ c with
    pc := BitVec.ofNat 24 (c.pc.toNat / 65536 * 65536 + v.toNat), waitNext := none, got := [] }, false)
  else if o ≤ 0x2F then
    let k := (o - 0x20) / 4
    let ws := listPut (o % 4) (fun _ => v) (wordsOf 4 (getE k c).toNat)
    (setE k (BitVec.ofNat 64 (valOf ws)) c, false)
  else if o ≤ 0x37 then ({ c with r := mset 0 (o - 0x10) v c.r }, false)
  else if o ≤ 0x4F then ({ c with loops := listPut ((o - 0x38) / 6) (fun l => loopPut l ((o - 0x38) % 6) v) c.loops }, false)
  else if o = 0x50 then
    let d := fld v 2 0
    ({ c with
      loops := if 4 < d then c.loops else loopsOf d c.loops
      rep := if bit v 8 then some (c.rep.getD 0) else none }, decide (4 < d))
  else if o = 0x51 then ({ c with rep := c.rep.map fun _ => v.toNat }, false)
  else (c, false)

/-- A write through the context state window (R135). -/
def ctxWinWrite (sub o : Nat) (v : Word) (s : State) : State :=
  let k := stkOf sub
  let r := (ctx sub s).run
  if r != .inactive && r != .stopped then setRgBit (bStk k) 1 6 true s
  else
    let p := ctxWinPut o v (ctx sub s)
    doIf p.2 (stkBadw k) (modCtx sub (fun _ => p.1) s)

/-- CTX_STATE_WRITE. -/
def execCtxStateWrite (_src : Src) (sub : Sub) (ofs : BitVec 7) (val : Word) (s : State) :
    Host.Outcome State Fault Refusal :=
  act s (ctxWinWrite sub.toNat ofs.toNat val)

/-! ### Debug stop and step (R137) -/

/-- The context has work: a start-pending program, a procedure entry that runs or has yielded, or a channel step (R110). -/
def ctxHasWork (sub : Nat) (s : State) : Bool :=
  (sch sub s).st == .startPending ||
  match (sch sub s).phase with
  | .proc | .yielded | .step _ | .fetch _ => true
  | _ => false

/-- The context stops at its next committed instruction boundary: now, or when the data of its load or the answer from the
flue has come. -/
def dbgStop (sub : Nat) (s : State) : State :=
  let s1 := squash sub s
  let s2 := modCtx sub (fun x => { x with stopped := true, step1 := false }) s1
  if (ctx sub s2).stall == .load || (ctx sub s2).stall == .flue then s2
  else setRun sub .stopped (modCtx sub (fun x => { x with stall := .none }) s2)

/-- A stopped context runs again: READY when it has work. -/
def dbgGo (sub : Nat) (s : State) : State :=
  setRun sub (if ctxHasWork sub s then .ready else .inactive)
    (modCtx sub (fun x => { x with stopped := false, step1 := false }) s)

/-- STEP of a STOPPED context: it runs one instruction when it is next chosen, at once READY when it has work. -/
def dbgStep (sub : Nat) (s : State) : State :=
  let s1 := modCtx sub (fun x => { x with step1 := true }) s
  if ctxHasWork sub s1 then setRun sub .ready s1 else s1

/-- A write of DBG_CTL (R137). STEP is set by every 1 (R16); DESIGN CHOICE (log 100): it acts only when written to a STOPPED
context, and reads 1 until a stepped instruction has completed. -/
def dbgWrite (sub : Nat) (val : Word) (s : State) : State :=
  let k := stkOf sub
  let o := 0x301 + 4 * ctxOf sub
  let old := bit (rg (bStk k) o s) 0
  let s1 := setRgBit (bStk k) o 0 (bit val 0) s
  let s2 := if bit val 0 && !old then dbgStop sub s1 else if !bit val 0 && old then dbgGo sub s1 else s1
  let s3 := doIf (bit val 1) (setRgBit (bStk k) o 1 true) s2
  if bit val 1 && bit val 0 && (ctx sub s3).run == .stopped then dbgStep sub s3 else s3

/-- DEBUG_STOP. -/
def execDebugStop (_src : Src) (sub : Sub) (stop : Bool) (s : State) : Host.Outcome State Fault Refusal :=
  act s (dbgWrite sub.toNat (wd (b2n stop)))
/-- DEBUG_STEP: STEP = 1 is written, with STOP as named. -/
def execDebugStep (_src : Src) (sub : Sub) (stop : Bool) (s : State) : Host.Outcome State Fault Refusal :=
  act s (dbgWrite sub.toNat (wd (2 + b2n stop)))

/-- STK_STAT as read. -/
def stkStat (k : Nat) (s : State) : Word :=
  let c := match (stk k s).cur with | some c => c * 4096 | none => 0x0800
  wd c ||| (rg (bStk k) 1 s &&& 0xE0)

/-- Number of a run state (R110). -/
def runCode : Run → Nat
  | .inactive => 0 | .ready => 1 | .running => 2 | .stalled => 3 | .longstall => 4 | .wait => 5 | .stopped => 6

/-- CTX_STAT of a context as read. -/
def ctxStat (sub : Nat) (s : State) : Word :=
  wd ((ctx sub s).waitc.toNat * 16 + runCode (ctx sub s).run)

end Sys2Proof.Machine
end

