-- ==== Sys2Proof/Machine/Bus.lean ====
section
/-! DEFINITION. The register bus: what a read of any register answers and what a write to any register does (R6 to R8,
R14 to R17), by word address. A register with a rule of its own goes to that rule; the others follow their map. -/
namespace Sys2Proof.Machine
open Sys2Proof

/-! ### Reads -/

/-- The stored value of a block's register. -/
def plain (n o : Nat) (s : State) : Word := rg n o s

/-- Frame timer registers as read by a source (R23). -/
def viewFrm (src : Src) (o : Nat) (s : State) : Word :=
  let f := s.ft
  let held (i : Nat) : Word := wordOf 4 i (dtbHeld src s).toNat
  if o = 1 then frmStat s
  else if o = 0x10 then wordOf 4 0 f.dtb
  else if o < 0x14 && 0x10 < o then held (o - 0x10)
  else if o < 0x20 then plain 0 o s
  else if o < 0x23 then wordOf 3 (o - 0x20) f.frmNum.toNat
  else if o < 0x24 then 0
  else if o < 0x28 then wordOf 4 (o - 0x24) f.tickDtb
  else if o < 0x2C then wordOf 4 (o - 0x28) f.nextTick
  else if o < 0x2E then wordOf 2 (o - 0x2C) (Machine.tc 32 f.syncErr)
  else if o < 0x30 then wordOf 2 (o - 0x2E) (Machine.tc 32 f.syncCorr)
  else if o = 0x38 then wd f.missRun
  else plain 0 o s

/-- HIF_STAT as read. -/
def hifStat (s : State) : Word :=
  let c := s.i3c
  let a := match c.da with | some d => 0x8000 + d.toNat * 256 | none => 0
  wd (a + b2n c.hdr * 4 + b2n c.resp.isSome * 2 + b2n c.exec.isSome) ||| (rg 1 1 s &&& 0xC0)

/-- Host interface registers as read. -/
def viewHif (o : Nat) (s : State) : Word :=
  if o = 1 then hifStat s
  else if 0x100 ≤ o && o < 0x500 then
    (let n := (o - 0x100) / 16
     if o % 16 = 6 then wqState n s else plain 1 o s)
  else if 0x800 ≤ o && o < 0xC00 then
    (let n := (o - 0x800) / 16
     if o % 16 = 6 then cqState n s else if o % 16 = 8 then wd (min (cq n s).round 65535) else plain 1 o s)
  else plain 1 o s

/-- PEND words of the host event controller: edge events and asserted level events not in service (R301). -/
def hevPendWord (w : Nat) (s : State) : Word :=
  (span 0 16).foldl (fun v k => setBit v (15 - k) (hevPending (16 * w + k) s)) 0

/-- Host event controller registers as read. -/
def viewHev (o : Nat) (s : State) : Word :=
  if o = 1 then hevStat s
  else if o = 4 then wd (hevCur s)
  else if o = 5 then wd (hevTop s)
  else if 0x20 ≤ o && o < 0x30 then hevPendWord (o - 0x20) s
  else plain 2 o s

/-- Boot loader registers as read. -/
def viewBoot (o : Nat) (s : State) : Word :=
  if o = 0 then btStat s
  else if o = 1 then btCause s
  else if o = 3 then wd (min (pushFree s) 65535)
  else plain 3 o s

/-- Security engine registers as read by a source (R368). -/
def viewSec (src : Src) (o : Nat) (s : State) : Word :=
  if o = 0 then secStat s
  else if o = 1 then secKeys s
  else if o = 3 then qtStat s
  else if 5 ≤ o && o < 8 then wordOf 3 (o - 5) s.sec.next
  else if 0x10 ≤ o && o < 0x14 then wordOf 4 (o - 0x10) s.sec.cfgGen
  else if o = 0x14 then wd (s.sec.cfgGen % 1024)
  else if 0x20 ≤ o && o < 0x30 then mget 0 (nonceKey src (o - 0x20)) s.sec.nonces
  else plain 4 o s

/-- Device fault control registers as read. -/
def viewFc (o : Nat) (s : State) : Word :=
  if o = 1 then wd (b2n (faultPin s) * 32768) ||| (rg 6 1 s &&& 0xE0)
  else if o = 0x31 then stStat s
  else if o = 0x32 then wd (s.fc.test.kind.toNat * 4096 + s.fc.test.steps)
  else if o = 0x40 then wd ((s.fc.seq.toNat - 1) % 4096)
  else if o = 0x41 || o = 0x42 then wordOf 2 (o - 0x41) s.fc.seq.toNat
  else plain 6 o s

/-- Damper registers as read. -/
def viewDmp (o : Nat) (s : State) : Word :=
  if o = 1 then dmpStat s
  else if o = 2 then dmpSrule s
  else if 0x100 ≤ o && o < 0x110 then tripMap (o - 0x100) s
  else if 0x1000 ≤ o && o < 0x2000 && o % 16 = 5 then ruleStat ((o - 0x1000) / 16) s
  else plain 0xA o s

/-- Registers of flue port 0 that belong to the whole device, as read by a source (R285). -/
def viewFlue (src : Src) (o : Nat) (s : State) : Word :=
  if o = 0x110 then wd (rop src s).sub.toNat
  else if o = 0x115 then ropRes src s
  else plain 0x14 o s

/-- Chimney quad registers as read (R254, R257). -/
def viewQuad (q o : Nat) (s : State) : Word :=
  if o = 0 then qdStat q s
  else if o < 0x100 || 0x500 ≤ o then plain (bQd q) o s
  else
    let l := 4 * q + (o - 0x100) / 0x100
    let i := o % 0x100
    if i = 0 then (if l < bulkLanes s then setFld (lnReg l 0 s) 15 12 1 else lnReg l 0 s)
    else if i = 1 then lnOwn l s
    else if i = 2 then lnStat l s
    else if i = 9 then lnPosttgt l s
    else if 0x10 ≤ i && i < 0x20 && i % 4 = 1 then fifoLvl (lnFifo l ((i - 0x10) / 4)) s
    else plain (bQd q) o s

/-- EVC_PEND word w of a hearth: edge sources and asserted level sources not in service (R293). -/
def evcPendWord (h w : Nat) (s : State) : Word :=
  (span 0 16).foldl (fun v k => setBit v (15 - k) (evPending h (16 * w + k) s)) 0

/-- Hearth registers as read. -/
def viewHearth (h o : Nat) (s : State) : Word :=
  if 0x140 ≤ o && o < 0x180 then evcPendWord h (o - 0x140) s
  else if 0x200 ≤ o && o < 0x240 then evcTgt h (o - 0x200) s
  else plain (bHrt h) o s

/-- Draught engine registers as read. -/
def viewDr (f o : Nat) (s : State) : Word :=
  if o = 1 then drBusyWord f s
  else if 0x100 ≤ o && o < 0x200 && o % 16 = 4 then chStat (chNo f ((o - 0x100) / 16)) s
  else plain (bDr f) o s

/-- Grate registers as read: BANK_CFG and CAL_CTL are those of the bank's grate 4n. -/
def viewGrate (g o : Nat) (s : State) : Word :=
  if o = 1 then wd (grateOwner g s * 256) ||| (rg (bGrt g) 1 s &&& 0xE0)
  else if o = 2 || o = 3 then plain (bGrt (g / 4 * 4)) o s
  else if 0x30 ≤ o && o < 0x40 then pinStat (16 * g + (o - 0x30)) s
  else if 0x40 ≤ o && o < 0x80 then wordOf 4 (o % 4) (pin (16 * g + (o - 0x40) / 4) s).stamp.toNat
  else if 0x200 ≤ o && o < 0x220 && o % 4 = 1 then fifoLvl (8 * g + (o - 0x200) / 4) s
  else if o = 0x302 then sqTgt g s
  else if o = 0x303 then sqStat g s
  else if o = 0x304 then wd (grate g s).pc.toNat
  else if o = 0x305 then wd (grate g s).flags.toNat
  else plain (bGrt g) o s

/-- BLW_CSTAT of a subchannel. -/
def blwCstat (sub : Nat) (s : State) : Word :=
  let x := sch sub s
  let p := specOf sub s
  wd (b2n p.isSome * 32768 + b2n (x.phase == .deferred) * 16384 + b2n ((p.map fun q => q.poison).getD false) * 8192 +
    ((p.map fun q => q.sbuf.length).getD 0) * 256 + x.look.length * 32 + (p.map fun q => q.tents.length).getD 0)

/-- BLW_HELD of a subchannel (R93). -/
def blwHeld (sub : Nat) (s : State) : Word :=
  (rg (bStk (stkOf sub)) (blwOfs sub 3) s &&& 0x4000) |||
    (match (sch sub s).delivered with | some d => wd (0x8000 + d.1.toNat) | none => 0)

/-- Subchannel registers as read: i counts from +0x00 (R45 to R47). -/
def viewSch (sub i : Nat) (s : State) : Word :=
  let x := sch sub s
  if i = 0 then schState sub s
  else if i = 0x12 || i = 0x13 then wordOf 2 (i - 0x12) x.ccw.toNat
  else if i = 0x14 || i = 0x15 then wordOf 2 (i - 0x14) x.curAddr.toNat
  else if i = 0x16 then wd x.curCnt
  else if i = 0x18 then x.sparm
  else schReg sub i s

/-- Bellows registers of a subchannel as read. -/
def viewBlw (sub i : Nat) (s : State) : Word :=
  if i = 1 then blwCstat sub s
  else if i = 2 then wd (((specOf sub s).map fun p => p.pause).getD 0)
  else if i = 3 then blwHeld sub s
  else rg (bStk (stkOf sub)) (blwOfs sub i) s

/-- BLW_STAT of a stoker. -/
def blwStat (k : Nat) (s : State) : Word :=
  (rg (bStk k) 0x901 s &&& 0x80) |||
    (match (stk k s).spec with | some p => wd (16 + ctxOf p.owner) | none => 0)

/-- Stoker registers as read by a source. -/
def viewStk (src : Src) (k o : Nat) (s : State) : Word :=
  if o = 1 then stkStat k s
  else if o = 0x202 then wd (evCur k s)
  else if 0x300 ≤ o && o < 0x340 && o % 4 = 0 then ctxStat (16 * k + (o - 0x300) / 4) s
  else if o = 0x414 then oppRes src k s
  else if 0x600 ≤ o && o < 0x800 then viewSch (16 * k + (o - 0x600) / 32) (o % 32) s
  else if 0x800 ≤ o && o < 0x900 then viewBlw (16 * k + (o - 0x800) / 16) (o % 16) s
  else if o = 0x901 then blwStat k s
  else if 0x1000 ≤ o && o < 0x1800 then ctxWinRead (16 * k + (o - 0x1000) / 128) (o % 128) s
  else plain (bStk k) o s

/-- What a read of the register at word address a answers a source, without the read's side effect: a shadow answers
the active copy (R44), a reserved offset 0 (R8). -/
def regView (src : Src) (a : Nat) (s : State) : Word :=
  let n := (a - 0x20000000) / 0x10000
  let o := a % 0x10000
  if 0x8000 ≤ o then (if isCounter (a - 0x8000) then shadowOf (a - 0x8000) s else 0)
  else if 0x7000 ≤ o then plain n o s
  else match blkOf n with
    | .frm => viewFrm src o s
    | .hif => viewHif o s
    | .hev => viewHev o s
    | .boot => viewBoot o s
    | .sec => viewSec src o s
    | .ember => if o = 0 then embStat s else if o = 3 then mramGet (embAddr s) s else plain 5 o s
    | .fc => viewFc o s
    | .mon => if o = 0 then s.ft.snapFrame else plain 7 o s
    | .damper => viewDmp o s
    | .bulk => if o = 1 then blkStat s else plain 0xB o s
    | .flue p => if p = 0 then viewFlue src o s else plain n o s
    | .quad q => viewQuad q o s
    | .hearth h => viewHearth h o s
    | .draught f => viewDr f o s
    | .grate g => viewGrate g o s
    | .stoker k => viewStk src k o s
    | .dbg | .gddr | .ident | .die _ | .firebox _ => plain n o s
    | .reserved => 0

/-- A read of one register by a source, with its side effect: the DTB holding set, an event claim, EMB_DATA. -/
def busRead (src : Src) (a : Nat) (s : State) : Word × State :=
  let n := (a - 0x20000000) / 0x10000
  let o := a % 0x10000
  match blkOf n with
  | .frm => if o = 0x10 then (wordOf 4 0 s.ft.dtb, dtbSample src s) else (regView src a s, s)
  | .hev => if o = 2 then hevClaimRead src s else (regView src a s, s)
  | .ember => if o = 3 then embDataRead s else (regView src a s, s)
  | .stoker k => if o = 0x200 then evnumRead src k s else (regView src a s, s)
  | _ => (regView src a s, s)

/-- A read of the register at a has a side effect for the reader (R98): its map marks it so. -/
def regSide (a : Nat) : Bool :=
  let o := a % 0x10000
  match blkOf ((a - 0x20000000) / 0x10000) with
  | .hev => o == 2
  | .ember => o == 3
  | .stoker _ => o == 0x200
  | .quad _ => decide (0x100 ≤ o) && decide (o < 0x500) && o % 0x100 == 8
  | _ => false

/-- Word address of DTB_W0. -/
def dtbAddr : Nat := ra 0 0x10

/-- Reads of n registers at rising addresses, each an access of its own. -/
def busReadEach (src : Src) (a : Nat) : Nat → State → List Word × State
  | 0, s => ([], s)
  | n + 1, s =>
    let r := busRead src a s
    let q := busReadEach src (a + 1) n r.2
    (r.1 :: q.1, q.2)

/-- One access that reads n registers: the four words of the DTB are one sample (R23). -/
def busReads (src : Src) (a n : Nat) (s : State) : List Word × State :=
  if a = dtbAddr && n = 4 then (wordsOf 4 s.ft.dtb, s) else busReadEach src a n s

/-! ### Writes -/

/-- BADW of the block that holds register o of block n. -/
def setBlkBadw (n o : Nat) (s : State) : State :=
  match badwOf (blkOf n) o with
  | some p => setRgBit n p.1 p.2 true s
  | none => s

/-- A write that follows its register map alone (R15, R16). -/
def mapWrite (n o : Nat) (v : Word) (s : State) : State :=
  match rowOf (blkOf n) o with
  | none => s
  | some r =>
    let w := wrFlds r.flds (rg n o s) v
    doIf w.2 (setBlkBadw n o) (setRg n o w.1 s)

/-- A write that a queue in use discards with CONFW (R316, register CQ_DSEQ). -/
def unlessEn (en : Bool) (n o : Nat) (v : Word) (s : State) : State := if en then confW s else mapWrite n o v s

/-- A write to a host interface register. -/
def writeHif (o : Nat) (v : Word) (s : State) : State :=
  if o = 2 then (if Config.i3cReserved (BitVec.ofNat 7 (fld v 6 0)) then hifBadw s else mapWrite 1 o v s)
  else if 0x100 ≤ o && o < 0x500 then
    (let n := (o - 0x100) / 16
     let i := o % 16
     if i = 0 then wqCtlWrite n v s
     else if i = 1 || i = 2 then unlessEn (wqEn n s) 1 o v s
     else if i = 8 then wqInval n v s
     else if i = 9 then wqPoke n v s
     else mapWrite 1 o v s)
  else if 0x800 ≤ o && o < 0xC00 then
    (let n := (o - 0x800) / 16
     let i := o % 16
     if i = 0 then cqCtlWrite n v s
     else if i = 1 || i = 2 || i = 5 then unlessEn (bit (cqCtl n s) 15) 1 o v s
     else if i = 3 || i = 4 then cqSample n (mapWrite 1 o v s)
     else if i = 9 then cqAck n v s
     else mapWrite 1 o v s)
  else mapWrite 1 o v s

/-- A write to a damper register. -/
def writeDmp (o : Nat) (v : Word) (s : State) : State :=
  if o = 0 then dmpCtlWrite v s
  else if 0x400 ≤ o && o < 0x480 then fenderWrite (o - 0x400) v s
  else if 0x1000 ≤ o && o < 0x2000 then
    (let r := (o - 0x1000) / 16
     let i := o % 16
     if i = 0 then ruleW0Write r v s
     else if i < 5 then ruleWordWrite r i v s
     else if i = 5 && bit v 14 then ruleRelease r s
     else s)
  else mapWrite 0xA o v s

/-- A write to a FIFO_CMD register (R200). -/
def fifoCmd (k : Nat) (v : Word) (bad : State → State) (s : State) : State :=
  if v = 1 then fifoFlush k s else if v = 2 then fifoDropCmd k s else bad s

/-- A write to a chimney quad register. -/
def writeQuad (src : Src) (q o : Nat) (v : Word) (s : State) : State :=
  let n := bQd q
  if o = 1 then qdRateWrite q v s
  else if o < 0x100 || 0x500 ≤ o then mapWrite n o v s
  else
    let l := 4 * q + (o - 0x100) / 0x100
    let i := o % 0x100
    if i = 0 then laneModeWrite l v s
    else if i = 1 then laneOwnWrite l v s
    else if i = 6 then ln8bWrite l v s
    else if i = 8 then laneArm src l v s
    else if 0x10 ≤ i && i < 0x20 && i % 4 = 2 then fifoCmd (lnFifo l ((i - 0x10) / 4)) v (setBlkBadw n o) s
    else mapWrite n o v s

/-- A write to EVC_ROUTE (R294): TARGET 65 to 127 is reserved, and with TARGET 64 an HNUM outside 0x41 to 0xBF. -/
def evcRouteWrite (h o : Nat) (v : Word) (s : State) : State :=
  let n := bHrt h
  let old := rg n o s
  let badT := decide (64 < fld v 6 0)
  let t := if badT then fld old 6 0 else fld v 6 0
  let badH := t == 64 && (decide (fld v 15 8 < 0x41) || decide (0xBF < fld v 15 8))
  let hn := if badH then fld old 15 8 else fld v 15 8
  doIf (badT || badH) (setBlkBadw n o) (setRg n o (wd (hn * 256 + t)) s)

/-- A write to a hearth register. -/
def writeHearth (h o : Nat) (v : Word) (s : State) : State :=
  let n := bHrt h
  if o = 5 then evcSwset h v s
  else if 0x20 ≤ o && o < 0x40 then slotWrite h false (o - 0x20) v s
  else if 0x40 ≤ o && o < 0x50 then slotWrite h true (o - 0x40) v s
  else if 0x140 ≤ o && o < 0x180 then pendClear h (o - 0x140) v s
  else if 0x1000 < o && o < 0x1400 then evcRouteWrite h o v s
  else mapWrite n o v s

/-- A write to a draught engine register. -/
def writeDr (f o : Nat) (v : Word) (s : State) : State :=
  if 0x100 ≤ o && o < 0x200 then
    (let k := chNo f ((o - 0x100) / 16)
     let i := o % 16
     if i = 1 then drCmd k v s
     else if i = 2 || i = 3 then drDescWrite k (i - 2) v s
     else if i = 12 then drBind k v s
     else mapWrite (bDr f) o v s)
  else mapWrite (bDr f) o v s

/-- A write to CAL_CTL: the bank's grate 4n takes it (R211). -/
def calCtlWrite (g : Nat) (v : Word) (s : State) : State :=
  if g % 4 ≠ 0 then s else mapWrite (bGrt g) 3 v s

/-- A write to a grate register. -/
def writeGrate (src : Src) (g o : Nat) (v : Word) (s : State) : State :=
  let n := bGrt g
  if o = 0 then grateOwnWrite g v s
  else if o = 2 then bankCfgWrite g v s
  else if o = 3 then calCtlWrite g v s
  else if 0x10 ≤ o && o < 0x20 then pinCfgWrite (16 * g + (o - 0x10)) v s
  else if 0x200 ≤ o && o < 0x220 && o % 4 = 2 then fifoCmd (8 * g + (o - 0x200) / 4) v (setBlkBadw n o) s
  else if o = 0x300 then (if bit v 0 then seqStop g s else s)
  else if o = 0x301 then seqKick src g (BitVec.ofNat 8 (fld v 7 0)) s
  else if o = 0x306 then stageHigh src (ra n 0x306) v s
  else if o = 0x307 then bt1Write src g v s
  else if 0x310 ≤ o && o < 0x318 then kWrite g (o - 0x310) v s
  else if 0x1000 ≤ o && o < 0x1400 then uwWrite g (o - 0x1000) v s
  else mapWrite n o v s

/-- A write to SCH_PATHn_W0: INSVC stays; a lane number above 31 is a reserved value. -/
def pathW0Write (sub i : Nat) (v : Word) (s : State) : State :=
  let n := bStk (stkOf sub)
  let o := schOfs sub i
  let old := rg n o s
  let bad := bit v 13 && decide (31 < fld v 5 0)
  let w := (v &&& 0xA03F) ||| (old &&& 0x4000)
  doIf bad (setBlkBadw n o) (setRg n o (if bad then setFld w 5 0 (fld old 5 0) else w) s)

/-- A write to a subchannel register. -/
def writeSch (sub i : Nat) (v : Word) (s : State) : State :=
  if i = 0x17 then curAdv sub v s
  else if 8 ≤ i && i < 16 && i % 2 = 0 then pathW0Write sub i v s
  else mapWrite (bStk (stkOf sub)) (schOfs sub i) v s

/-- A write to a stoker register. -/
def writeStk (src : Src) (k o : Nat) (v : Word) (s : State) : State :=
  let n := bStk k
  if o = 0 then holdWrite k v s
  else if o = 3 then icInvWrite k v s
  else if o = 5 then icPreload k v s
  else if 0x100 ≤ o && o < 0x120 then codemapWrite k (o - 0x100) v s
  else if o = 0x201 then evdoneWrite src k v s
  else if 0x300 ≤ o && o < 0x340 && o % 4 = 1 then dbgWrite (16 * k + (o - 0x300) / 4) v s
  else if o = 0x402 then addDue (.resched k) (mapWrite n o v s)
  else if 0x410 ≤ o && o < 0x414 then oppPut k src 0 resMalformed s
  else if 0x500 ≤ o && o < 0x600 then slotTableWrite k (decide (0x580 ≤ o)) (o % 0x80 / 4) (o % 4) v s
  else if 0x600 ≤ o && o < 0x800 then writeSch (16 * k + (o - 0x600) / 32) (o % 32) v s
  else if 0x1000 ≤ o && o < 0x1800 then ctxWinWrite (16 * k + (o - 0x1000) / 128) (o % 128) v s
  else mapWrite n o v s

/-- A write to a frame timer register. -/
def writeFrm (src : Src) (o : Nat) (v : Word) (s : State) : State :=
  if o = 0 then frmCtlWrite v s
  else if o = 2 then stageHigh src (ra 0 2) v s
  else if o = 3 then periodLo src v s
  else if o = 4 then ashWrite v s
  else if o = 5 then syncCtlWrite v s
  else if o = 0x18 then dtbCmd v s
  else mapWrite 0 o v s

/-- A write to a device fault control register. -/
def writeFc (src : Src) (o : Nat) (v : Word) (s : State) : State :=
  if o = 2 then stageHigh src (ra 6 2) v s
  else if o = 3 then minNs1 src v s
  else if o = 4 then safeClear v s
  else if o = 5 then rstCtl v s
  else if o = 0x30 then testRequest v s
  else if o = 0x43 then sootLoad v s
  else if 0x100 ≤ o && o < 0x180 then retWrite (o - 0x100) v s
  else mapWrite 6 o v s

/-- A write to a flue port register; the remote operation port takes 4-word writes only (R285). -/
def writeFlue (src : Src) (p o : Nat) (v : Word) (s : State) : State :=
  if o = 0 then flCtlWrite p v s
  else if p = 0 && o = 0x100 then flGctlWrite v s
  else if p = 0 && o = 0x110 then modRop src (fun r => { r with sub := BitVec.ofNat 13 (fld v 12 0) }) s
  else if p = 0 && 0x111 ≤ o && o < 0x115 then ropIssue src 0 0 0 0 true s
  else mapWrite (bFl p) o v s

/-- A write to the bulk port's registers; unmasking an MSI-X vector releases what it holds. -/
def writeBulk (o : Nat) (v : Word) (s : State) : State :=
  if o = 0 then blkCtlWrite v s
  else if 0x1000 ≤ o && o < 0x1208 then msixRelease (mapWrite 0xB o v s)
  else mapWrite 0xB o v s

/-- What a write of v by a source does to register o of block n. -/
def blkWrite (src : Src) (n o : Nat) (v : Word) (s : State) : State :=
  if 0x8000 ≤ o then s
  else if 0x7000 ≤ o then
    (if fltSources (blkOf n) = [] then s
     else if o = 0x7003 then faultForce n v s
     else if o = 0x7004 then faultAck n v s
     else mapWrite n o v s)
  else match blkOf n with
    | .frm => writeFrm src o v s
    | .hif => writeHif o v s
    | .hev => if o = 3 then hevDone (fld v 7 0) s else if o = 6 then hevSwset v s
              else if 0x20 ≤ o && o < 0x30 then hevPendClear (o - 0x20) v s else mapWrite 2 o v s
    | .boot => if o = 2 then btCmd src v s else if 0x1000 ≤ o && o < 0x1100 then pushWord src v s else mapWrite 3 o v s
    | .sec => if o = 2 then quoteCmd src v s
              else if 0x20 ≤ o && o < 0x30 then
                modSec (fun x => { x with nonces := mset 0 (nonceKey src (o - 0x20)) v x.nonces }) s
              else mapWrite 4 o v s
    | .ember => if o = 3 then embDataWrite v s else mapWrite 5 o v s
    | .fc => writeFc src o v s
    | .gddr => if o = 0 then gdCtlWrite v s else mapWrite 9 o v s
    | .damper => writeDmp o v s
    | .bulk => writeBulk o v s
    | .ident => if o = 3 then devnumWrite v s else s
    | .flue p => writeFlue src p o v s
    | .quad q => writeQuad src q o v s
    | .hearth h => writeHearth h o v s
    | .draught f => writeDr f o v s
    | .grate g => writeGrate src g o v s
    | .stoker k => writeStk src k o v s
    | .mon | .dbg | .die _ | .firebox _ => mapWrite n o v s
    | .reserved => s

/-- One word written to the register at word address a by a source: the write arrives (R371) and takes its effect. -/
def busWrite (src : Src) (a : Nat) (v : Word) (s : State) : State :=
  blkWrite src ((a - 0x20000000) / 0x10000) (a % 0x10000) v (cfgNote src a v s)

/-- Writes at rising addresses, each an access of its own (R315). -/
def busWriteEach (src : Src) (a : Nat) : List Word → State → State
  | [], s => s
  | w :: ws, s => busWriteEach src (a + 1) ws (busWrite src a w s)

/-- The stoker whose operation port starts at word address a. -/
def oppAt (a : Nat) : Option Nat :=
  match blkOf ((a - 0x20000000) / 0x10000) with
  | .stoker k => if a % 0x10000 = 0x410 then some k else none
  | _ => none

/-- One access that writes words to registers: four words at OPP_W0 or ROP_W0 are one operation (R47, R285). -/
def busWrites (src : Src) (a : Nat) (ws : List Word) (s : State) : State :=
  if ws.length ≠ 4 then busWriteEach src a ws s
  else match oppAt a with
    | some k => oppWrite src k ws s
    | none =>
      if a = ra 0x14 0x111 then
        ropIssue src (fld (nth ws 0) 15 12) (fld (nth ws 0) 11 0) (valOf [nth ws 1, nth ws 2]) (nth ws 3) false s
      else busWriteEach src a ws s

/-! ### Accesses by address from outside the fireboxes (R229, R359) -/

/-- Before boot stage 8 a source outside the stokers and the boot loader reaches a few register blocks only (R359). -/
def reachable (src : Src) (a : Nat) (s : State) : Bool :=
  booted s ||
    (match src with
     | .boot | .stoker _ => true
     | _ => decide (0x20000000 ≤ a) && decide (a < 0x30000000) &&
        (let n := (a - 0x20000000) / 0x10000
         (decide (1 ≤ n) && decide (n ≤ 6)) || n == 0xC))

/-- What a word address names for a source outside the fireboxes. -/
def extPlace (src : Src) (a : Nat) (s : State) : Place := if reachable src a s then place none none a s else .unmapped

end Sys2Proof.Machine
end

