-- ==== Sys2Proof/Machine/HostIf.lean ====
section
/-! DEFINITION. The host's two ways in: the I3C target with its common command codes and the window protocol (R306 to
R315), and the memory reads and writes of the PCI Express bulk port (R268 to R270). -/
namespace Sys2Proof.Machine
open Sys2Proof

/-! ### Accesses word by word (R315, R268) -/

/-- How one access of a job went: it is done, it waits for the flue, or it failed with a result code of *Table — window
result codes*. -/
inductive JobRes where
  | more
  | stop
  | fail (code : Nat)
deriving DecidableEq, Repr

/-- The job has nothing left to do. -/
def jobOver (j : HostJob) : Bool := if j.wr then j.left.isEmpty && j.last.isEmpty else j.n == 0

/-- k words of a job are done, with what a read brought. -/
def jobNext (k : Nat) (ws : List Word) (j : HostJob) : HostJob :=
  { j with next := j.next + k, left := j.left.drop k, n := j.n - k, got := j.got ++ ws, done := j.done + k, wait := false }

/-- Both byte enables of a word. -/
def whole (w : Word × BitVec 2) : Bool := w.2 == 3

/-- The job is one access of four words: at DTB_W0, at an operation port, or at ROP_W0, which no aligned 8-byte PCI Express
write reaches (R23, R47, R285). -/
def jobFour (src : Src) (j : HostJob) : Bool :=
  if j.wr then j.done == 0 && j.left.length == 4 && j.left.all whole &&
    ((oppAt j.next).isSome || (src == .i3c && j.next == ra 0x14 0x111))
  else j.done == 0 && j.n == 4 && j.next == dtbAddr

/-- The word w with the enabled bytes of v. -/
def mergeBytes (w : Word) (v : Word × BitVec 2) : Word :=
  let m : Word := (if bit v.2 1 then 0xFF00 else 0) ||| (if bit v.2 0 then 0x00FF else 0)
  (w &&& ~~~m) ||| (v.1 &&& m)

/-- An unmapped access of the bulk port (R269). -/
def blkUnmapped (s : State) : State := count 0xB 0x10 (setRgBit 0xB 1 6 true s)

/-- A partial word for register space is discarded with PARTW (R270); over the words of an operation port it gives
MALFORMED (R269). -/
def blkPartial (a : Nat) (s : State) : State :=
  let s1 := setRgBit 0xB 1 5 true s
  match blkOf ((a - 0x20000000) / 0x10000) with
  | .stoker k => if 0x410 ≤ a % 0x10000 && a % 0x10000 < 0x414 then oppPut k .bulk 0 resMalformed s1 else s1
  | _ => s1

/-- The next word of a write (R15 to R17, R268 to R270). -/
def jobWrite (src : Src) (j : HostJob) (v : Word × BitVec 2) (s : State) : HostJob × JobRes × State :=
  let a := j.next
  let on := jobNext 1 [] j
  match extPlace src a s with
  | .unmapped => if src = .bulk then (on, .more, blkUnmapped s) else (j, .fail 4, s)
  | .mem k =>
    if v.2 = 0 then (on, .more, s)
    else if whole v then (on, .more, memStore [(k, v.1)] s)
    else
      let r := memRead k s
      (on, .more, count 0xB 0x12 (memStore [(k, mergeBytes r.1 v)] r.2.2))
  | .reg x =>
    if v.2 = 0 then (on, .more, s)
    else if whole v then (on, .more, busWrite src x v.1 s)
    else (on, .more, blkPartial x s)
  | .flue x =>
    if v.2 = 0 then (on, .more, s)
    else if !whole v then (on, .more, setRgBit 0xB 1 5 true s)
    else if (freeTag s).isNone then (j, .stop, s)
    else ({ j with wait := true }, .stop, flWrite x [v.1] (.win (srcNo src)) s)

/-- The next word of a read. -/
def jobRead (src : Src) (j : HostJob) (s : State) : HostJob × JobRes × State :=
  match extPlace src j.next s with
  | .unmapped => (j, .fail 4, s)
  | .mem k =>
    let r := memRead k s
    if r.2.1 then (j, .fail 6, r.2.2) else (jobNext 1 [r.1] j, .more, r.2.2)
  | .reg x => let r := busRead src x s; (jobNext 1 [r.1] j, .more, r.2)
  | .flue x =>
    if (freeTag s).isNone then (j, .stop, s)
    else ({ j with wait := true }, .stop, flRead x 1 (.win (srcNo src)) s)

/-- The next word of a write. That of w0 of an enabled queue's entry waits where the transfer covers more of the entry, and
comes last (R315, R318). -/
def jobNextWrite (src : Src) (j : HostJob) (s : State) : HostJob × JobRes × State :=
  match j.left, j.last with
  | v :: w :: ws, _ =>
    if wqFirstWord j.next s && v.2 != 0 then
      ({ j with next := j.next + 1, left := w :: ws, last := j.last ++ [(j.next, v)] }, .more, s)
    else jobWrite src j v s
  | [v], _ => jobWrite src j v s
  | [], (a, v) :: r => jobWrite src { j with next := a, left := [v], last := r } v s
  | [], [] => (j, .more, s)

/-- The next access of a job, where it is answered. -/
def jobOne (src : Src) (j : HostJob) (s : State) : HostJob × JobRes × State :=
  if jobFour src j && reachable src j.next s then
    (if j.wr then (jobNext 4 [] j, .more, busWrites src j.next (j.left.map fun w => w.1) s)
     else let r := busReads src j.next 4 s; (jobNext 4 r.1 j, .more, r.2))
  else if j.wr then jobNextWrite src j s
  else jobRead src j s

/-- The job's next access is to memory or a register of this device. -/
def jobLocal (src : Src) (j : HostJob) (s : State) : Bool :=
  match extPlace src (if j.wr && j.left.isEmpty then (j.last.map fun x => x.1).headD 0 else j.next) s with
  | .mem _ | .reg _ => true
  | .flue _ | .unmapped => false

/-- The job's next access is to GDDR6 that waits for its first training (R238). -/
def jobWaits (src : Src) (j : HostJob) (s : State) : Bool :=
  match extPlace src j.next s with
  | .mem k => gdWaits k s
  | .reg _ | .flue _ | .unmapped => false

/-- The next access of a job: one that has no answer fails with a bus error (R236); a posted write of the bulk port reports
nothing. One to GDDR6 waits for the first training. -/
def jobStep (src : Src) (j : HostJob) (s : State) : HostJob × JobRes × State :=
  let r : BusReq := .host (src == .bulk)
  if s.mute.contains r && jobLocal src j s then
    let t := unheard r (fun u => (jobOne src j u).2.2) s
    if j.wr && src == .bulk then ((jobOne src j s).1, .more, t) else (j, .fail 5, t)
  else if jobWaits src j s then (j, .stop, s)
  else jobOne src j s

/-- The awaited answer of the flue for a job, if it has come. -/
def jobAnswer (src : Src) (j : HostJob) (s : State) : HostJob × JobRes × State :=
  match s.winGot.find? fun g => g.1 == srcNo src with
  | none => (j, .stop, s)
  | some (_, st, ws) =>
    let s1 := { s with winGot := s.winGot.filter fun g => g.1 != srcNo src }
    if st = 0 then (jobNext 1 (if j.wr then [] else ws.take 1) j, .more, s1)
    else if src = .bulk && j.wr then (jobNext 1 [] j, .more, s1)
    else (j, .fail (if st = 3 then 6 else 5), s1)

/-- Carry a job on until it is over, fails or waits; at most so many accesses. -/
def jobRun (src : Src) : Nat → HostJob → State → HostJob × JobRes × State
  | 0, j, s => (j, .stop, s)
  | n + 1, j, s =>
    if jobOver j then (j, .more, s)
    else
      let r := if j.wait then jobAnswer src j s else jobStep src j s
      match r.2.1 with
      | .more => jobRun src n r.1 r.2.2
      | .stop => r
      | .fail _ => r

/-- Accesses a job makes at most, and answers it awaits. -/
def jobFuel : Nat := 520

/-! ### The window protocol (R311 to R315) -/

/-- Change the I3C target's state. -/
def modI3c (f : I3c → I3c) (s : State) : State := { s with i3c := f s.i3c }

/-- The target holds the response to a request (R313): RSTAT, TOP, DONE, TAG, data and the CRC; the request is over, and a
result other than OK is counted. -/
def winRespond (op : Nat) (tag : Word) (code done : Nat) (data : List Word) (s : State) : State :=
  let body : List Byte :=
    [BitVec.ofNat 8 (op % 128 + 128), BitVec.ofNat 8 data.length, BitVec.ofNat 8 code, BitVec.ofNat 8 (hevTop s)]
      ++ bytesOf ([wd done, tag] ++ data)
  let s1 := modI3c (fun c => { c with
    exec := none, resp := some (body ++ bytesOf [crc16 body]), respRead := false, crcFlag := c.crcFlag || code == 1 }) s
  if code = 0 then s1 else if code = 1 then raise 1 0 0 (count 1 0x12 s1) else count 1 0x14 s1

/-- The READ or WRITE in hand goes on (R314, R315). -/
def winGo (s : State) : State :=
  match s.i3c.exec with
  | none => s
  | some w =>
    let r := jobRun .i3c jobFuel w.job s
    match r.2.1 with
    | .more => winRespond w.op w.tag 0 r.1.done r.1.got r.2.2
    | .fail c => winRespond w.op w.tag c r.1.done r.1.got r.2.2
    | .stop => modI3c (fun c => { c with exec := some { w with job := r.1 } }) r.2.2

/-- A request frame arrives (R314): NACKed while a request executes; else it discards the response held, and f is its
execution. A target without a dynamic address is not addressed, and one that ignores the bus hears nothing (R306). -/
def winArrive (f : State → State) (s : State) : State :=
  if s.i3c.da.isNone || s.i3c.deaf then s
  else if s.i3c.exec.isSome then count 1 0x16 (modI3c (fun c => { c with reply := none }) s)
  else
    let s1 := doIf (s.i3c.resp.isSome && !s.i3c.respRead) (count 1 0x18) s
    f (count 1 0x10 (modI3c (fun c => { c with resp := none, reply := some [] }) s1))

/-- A request that fails the frame check, or runs (R313). -/
def winChecked (op : Nat) (tag : Word) (ok : Bool) (f : State → State) (s : State) : State :=
  winArrive (fun t => if ok then f t else winRespond op tag 3 0 [] t) s

/-- The request executes as a job. -/
def winStart (op : Nat) (tag : Word) (j : HostJob) (s : State) : State :=
  winGo (modI3c (fun c => { c with exec := some { op := op, tag := tag, job := j } }) s)

/-- WIN_READ. -/
def execWinRead (count : Byte) (addr : W32) (tag : Word) (s : State) : Host.Outcome State Fault Refusal :=
  let n := count.toNat
  act s (winChecked 1 tag (decide (1 ≤ n) && decide (n ≤ 128) && decide (addr.toNat + n ≤ 2 ^ 32))
    (winStart 1 tag { wr := false, next := addr.toNat, n := n }))

/-- WIN_WRITE. -/
def execWinWrite (count : Byte) (addr : W32) (tag : Word) (data : List Word) (s : State) :
    Host.Outcome State Fault Refusal :=
  let n := count.toNat
  act s (winChecked 2 tag
    (decide (1 ≤ n) && decide (n ≤ 128) && decide (addr.toNat + n ≤ 2 ^ 32) && data.length == n)
    (winStart 2 tag { wr := true, next := addr.toNat, left := data.map fun w => (w, 3) }))

/-- STATUS: HIF_STAT, HEV_CUR and HEV_TOP, one DTB sample, DMP_STAT, ID_DEVNUM; the request executes while it reads. -/
def winStatus (tag : Word) (s : State) : State :=
  let t := modI3c (fun c => { c with exec := some { op := 3, tag := tag, job := { wr := false, next := 0 } } }) s
  winRespond 3 tag 0 0 ([hifStat t, wd (hevCur t * 256 + hevTop t)] ++ wordsOf 4 t.ft.dtb ++ [dmpStat t, wd (devNum t)]) t

/-- WIN_STATUS. -/
def execWinStatus (count : Byte) (addr : W32) (tag : Word) (s : State) : Host.Outcome State Fault Refusal :=
  act s (winChecked 3 tag (count == 0 && addr == 0) (winStatus tag))

/-- EVENT-CLAIM: as a read of HEV_CLAIM. -/
def winClaim (tag : Word) (s : State) : State :=
  let r := hevClaim s
  winRespond 4 tag 0 r.1 [] r.2

/-- WIN_EVENT_CLAIM. -/
def execWinEventClaim (count : Byte) (addr : W32) (tag : Word) (s : State) : Host.Outcome State Fault Refusal :=
  act s (winChecked 4 tag (count == 0 && addr == 0) (winClaim tag))

/-- EVENT-DONE: as a write of HEV_DONE; NOTSVC for an event not in service. -/
def winDone (n : Nat) (tag : Word) (s : State) : State :=
  winRespond 5 tag (if hevInSvc n s then 0 else 7) 0 [] (hevDone n s)

/-- WIN_EVENT_DONE. -/
def execWinEventDone (count : Byte) (addr : W32) (tag : Word) (s : State) : Host.Outcome State Fault Refusal :=
  act s (winChecked 5 tag (count == 0 && decide (1 ≤ addr.toNat) && decide (addr.toNat ≤ 255)) (winDone addr.toNat tag))

/-- QUOTE (R368): BUSY while one runs; else it starts, and DONE is QT_SEQ + 1. -/
def winQuote (tag : Word) (data : List Word) (s : State) : State :=
  if quoteRuns s then winRespond 6 tag 8 0 [] s
  else winRespond 6 tag 0 (rg 4 4 s + 1).toNat [] (quoteBegin data s)

/-- WIN_QUOTE. -/
def execWinQuote (count : Byte) (addr : W32) (tag : Word) (data : List Word) (s : State) :
    Host.Outcome State Fault Refusal :=
  act s (winChecked 6 tag
    (decide (1 ≤ count.toNat) && decide (count.toNat ≤ 16) && addr == 0 && data.length == count.toNat) (winQuote tag data))

/-- WIN_PING. -/
def execWinPing (count : Byte) (addr : W32) (tag : Word) (s : State) : Host.Outcome State Fault Refusal :=
  act s (winChecked 7 tag (count == 0 && addr == 0) (winRespond 7 tag 0 0x2416 []))

/-- COUNT and ADDR lie in the range that an opcode allows (R313). -/
def winRange (op count addr : Nat) : Bool :=
  if op = 1 || op = 2 then decide (1 ≤ count) && decide (count ≤ 128) && decide (addr + count ≤ 2 ^ 32)
  else if op = 5 then count == 0 && decide (1 ≤ addr) && decide (addr ≤ 255)
  else if op = 6 then decide (1 ≤ count) && decide (count ≤ 16) && addr == 0
  else count == 0 && addr == 0

/-- The first check a frame of dataLen data words fails (R313): CRC, opcode, frame; 0 for none. -/
def winFails (op count addr dataLen : Nat) (crcOk lenOk : Bool) : Nat :=
  if !crcOk then 1
  else if op = 0 || 7 < op then 2
  else if !lenOk || !winRange op count addr || dataLen ≠ (if op = 2 || op = 6 then count else 0) then 3
  else 0

/-- The bus is in HDR-DDR and the frame's command code is not 0x20 (R310). -/
def hdrOdd (code : Byte) (s : State) : Bool := s.i3c.hdr && code != 0x20

/-- A frame that fails a check is answered; in HDR-DDR one under a command code other than 0x20 (and 0xA0, a RESPONSE_READ), a
read or a write, is not acknowledged (R310, R313). -/
def winReject (code op : Byte) (tag : Word) (fails : Nat) (s : State) : State :=
  if hdrOdd code s then modI3c (fun c => { c with reply := none }) s
  else if fails = 0 then s
  else winArrive (winRespond op.toNat tag fails 0 []) s

/-- WINDOW_REQUEST_REJECTED: a frame that fails a check. -/
def execWindowRequestRejected (code op count : Byte) (addr : W32) (tag : Word) (dataLen : Byte) (ok : FrameChecks)
    (s : State) : Host.Outcome State Fault Refusal :=
  act s (winReject code op tag (winFails op.toNat count.toNat addr.toNat dataLen.toNat ok.crc ok.len))

/-- A private read, in HDR-DDR under command code 0xA0 (R310, R314): NACKed and counted while a request executes, NACKed when
no response is held. -/
def respRead (s : State) : State :=
  if s.i3c.da.isNone || s.i3c.deaf then s
  else
    let t := winGo s
    if t.i3c.exec.isSome then count 1 0x16 (modI3c (fun c => { c with reply := none }) t)
    else modI3c (fun c => { c with reply := c.resp, respRead := c.respRead || c.resp.isSome }) t

/-- RESPONSE_READ. -/
def execResponseRead (s : State) : Host.Outcome State Fault Refusal := act s respRead

/-! ### Common command codes (R306 to R309) -/

/-- A CCC that the target hears: none while it ignores the bus (R306). -/
def ccc (f : I3c → I3c) (s : State) : State := if s.i3c.deaf then s else modI3c f s

/-- The answer of a direct CCC that reads; a target without a dynamic address gives none. -/
def cccReply (bs : List Byte) (s : State) : State :=
  ccc (fun c => { c with reply := if c.da.isSome then some bs else none }) s

/-- ENEC: target interrupts and Hot-Join are enabled as the command says. -/
def execEnec (tint hj : Bool) (s : State) : Host.Outcome State Fault Refusal :=
  act s (ccc fun c => { c with tint := c.tint || tint, hj := c.hj || hj })

/-- DISEC: disabled as the command says. -/
def execDisec (tint hj : Bool) (s : State) : Host.Outcome State Fault Refusal :=
  act s (ccc fun c => { c with tint := c.tint && !tint, hj := c.hj && !hj })

/-- RSTDAA: the dynamic address is cleared; host events stay pending. -/
def execRstdaa (s : State) : Host.Outcome State Fault Refusal := act s (ccc fun c => { c with da := none })

/-- The target takes a dynamic address; Hot-Join is over. -/
def takeDa (a : BitVec 7) (s : State) : State := ccc (fun c => { c with da := some a, hotJoin := false }) s

/-- ENTDAA: a target without a dynamic address takes one. -/
def execEntdaa (da : BitVec 7) (s : State) : Host.Outcome State Fault Refusal :=
  act s fun t => if t.i3c.da.isSome then t else takeDa da t

/-- SETDASA: the same at the static address. -/
def execSetdasa (sa da : BitVec 7) (s : State) : Host.Outcome State Fault Refusal :=
  act s fun t => if t.i3c.da.isSome || fld (rg 1 2 t) 6 0 ≠ sa.toNat then t else takeDa da t

/-- SETNEWDA: a target with a dynamic address changes it. -/
def execSetnewda (da : BitVec 7) (s : State) : Host.Outcome State Fault Refusal :=
  act s fun t => if t.i3c.da.isSome then takeDa da t else t

/-- SETMWL: accepted only with 266, the limit there is. -/
def execSetmwl (_val : Word) (s : State) : Host.Outcome State Fault Refusal := act s id

/-- SETMRL: accepted only with 266, the limit there is. -/
def execSetmrl (_val : Word) (s : State) : Host.Outcome State Fault Refusal := act s id

/-- GETMWL: 266. -/
def execGetmwl (s : State) : Host.Outcome State Fault Refusal := act s (cccReply (bytesOf [266]))

/-- GETMRL: 266, and an IBI payload of 1. -/
def execGetmrl (s : State) : Host.Outcome State Fault Refusal := act s (cccReply (bytesOf [266] ++ [1]))

/-- The provisional ID (R307). -/
def i3cPid (s : State) : Nat :=
  Config.mipiId.toNat * 2 ^ 33 + 0x2416 * 65536 + fld (rg 1 3 s) 3 0 * 4096 + fld Config.serial 15 4

/-- GETPID. -/
def execGetpid (s : State) : Host.Outcome State Fault Refusal :=
  act s fun t => cccReply (bytesOf (wordsOf 3 (i3cPid t))) t

/-- GETBCR. -/
def execGetbcr (s : State) : Host.Outcome State Fault Refusal := act s (cccReply [0x26])

/-- GETDCR. -/
def execGetdcr (s : State) : Host.Outcome State Fault Refusal := act s (cccReply [0x00])

/-- The word GETSTATUS answers (R308). -/
def i3cStatus (s : State) : Word := wd (hevTop s * 256 + b2n s.i3c.crcFlag * 32 + b2n (hevNext s != 0))

/-- GETSTATUS: bit 5 starts anew. -/
def execGetstatus (s : State) : Host.Outcome State Fault Refusal :=
  act s fun t => if t.i3c.da.isNone then cccReply [] t
    else ccc (fun c => { c with crcFlag := false }) (cccReply (bytesOf [i3cStatus t]) t)

/-- GETCAPS: HDR-DDR is the only HDR mode, none with HDR_EN = 0. -/
def execGetcaps (s : State) : Host.Outcome State Fault Refusal :=
  act s fun t => cccReply [if bit (rg 1 0 t) 0 then 0x01 else 0x00] t

/-- ENTHDR0 (R306, R308): HDR-DDR, unless HDR_EN = 0. -/
def execEnthdr0 (s : State) : Host.Outcome State Fault Refusal :=
  act s fun t => if bit (rg 1 0 t) 0 then ccc (fun c => { c with hdr := true }) t else t

/-- HDR_EXIT. -/
def execHdrExit (s : State) : Host.Outcome State Fault Refusal :=
  act s (modI3c fun c => { c with hdr := false, deaf := false })

/-- RSTACT (R308): 0x01 resets the target logic, keeps the dynamic address and discards a held response and the request in
hand with what the flue owes it; 0x00 is no action; a direct command with another defining byte is NACKed, a broadcast one
ignored, and so is a CCC that the target does not support; after ENTHDR for another HDR mode than HDR-DDR the target ignores
the bus up to the exit pattern (R306). -/
def rstact (form : CccForm) (db : Byte) (s : State) : State :=
  if s.i3c.deaf then s
  else match form with
    | .unknownBroadcast => s
    | .enterHdr => modI3c (fun c => { c with deaf := true }) s
    | .unknownDirect => modI3c (fun c => { c with reply := none }) s
    | .broadcast | .direct =>
      if db = 0 then s
      else if db = 1 then
        modI3c (fun c => { da := c.da, hotJoin := c.hotJoin }) { s with
          outst := s.outst.filter fun kv => kv.2 != .win 0, winGot := s.winGot.filter fun g => g.1 != 0 }
      else if form = .direct then modI3c (fun c => { c with reply := none }) s
      else s

/-- RSTACT. -/
def execRstact (form : CccForm) (db : Byte) (s : State) : Host.Outcome State Fault Refusal := act s (rstact form db)

/-- HOT_JOIN_REQUEST (R309): requested when Hot-Join is enabled and the target has no dynamic address. -/
def execHotJoinRequest (s : State) : Host.Outcome State Fault Refusal :=
  act s fun t => if t.i3c.da.isNone && t.i3c.hj && bit (rg 1 0 t) 1 then modI3c (fun c => { c with hotJoin := true }) t else t

/-! ### The bulk port's memory requests (R268 to R270) -/

/-- First device word of a BAR: register space, the window of BLK_WIN2, GDDR6. -/
def barBase (bar : Nat) (s : State) : Nat :=
  if bar = 0 then 0x20000000 else if bar = 1 then fld (rg 0xB 2 s) 15 9 * 0x2000000 else 0x80000000

/-- Size of a BAR in bytes. -/
def barSize (bar : Nat) : Nat := if bar = 0 then 2 ^ 27 else if bar = 1 then 2 ^ 26 else if bar = 2 then 2 ^ 32 else 0

/-- A job of the bulk port is over: a read is completed. -/
def blkDone (j : HostJob) (r : JobRes) (s : State) : State :=
  if j.wr then s
  else match r with
    | .fail c =>
      if c = 4 then blkCpl 1 [] (blkUnmapped s) else blkCpl 2 [] (count 0xB 0x10 (setRgBit 0xB 1 4 true s))
    | .more | .stop => blkCpl 0 j.got s

/-- The requests in hand go on, in order (R269). -/
def blkGo : Nat → State → State
  | 0, s => s
  | n + 1, s =>
    match s.bulk.jobs with
    | [] => s
    | j :: js =>
      let r := jobRun .bulk jobFuel j s
      match r.2.1 with
      | .stop => modBulk (fun b => { b with jobs := r.1 :: js }) r.2.2
      | x => blkGo n (blkDone r.1 x (modBulk (fun b => { b with jobs := js }) r.2.2))

/-- BULK_LINK_DOWN: writes already received behind a read that goes now complete (R267). -/
def execBulkLinkDown (s : State) : Host.Outcome State Fault Refusal :=
  act s fun t => let u := blkLinkDown t; blkGo u.bulk.jobs.length u

/-- BULK_RETRAIN. -/
def execBulkRetrain (src : Src) (val : Word) (s : State) : Host.Outcome State Fault Refusal :=
  actWrite src (ra 0xB 0) val s fun t => let u := blkCtlWrite val t; blkGo u.bulk.jobs.length u

/-- A memory request joins the ones in hand. -/
def blkAdd (j : HostJob) (s : State) : State :=
  let t := modBulk (fun b => { b with jobs := b.jobs ++ [j] }) s
  blkGo (t.bulk.jobs.length) t

/-- A memory read of n words at a byte offset into a BAR. -/
def pcieRead (bar ofs n : Nat) (s : State) : State :=
  if !s.bulk.linkUp then s
  else if barSize bar < ofs / 2 * 2 + 2 * n then blkUnsupported s
  else blkAdd { wr := false, next := barBase bar s + ofs / 2, n := n } s

/-- PCIE_READ_REQUEST. -/
def execPcieReadRequest (bar : BitVec 2) (ofs : W32) (n : Byte) (s : State) : Host.Outcome State Fault Refusal :=
  act s (pcieRead bar.toNat ofs.toNat n.toNat)

/-- A memory write of words with byte enables at a byte offset into a BAR. -/
def pcieWrite (bar ofs : Nat) (data : List (Word × BitVec 2)) (s : State) : State :=
  if !s.bulk.linkUp then s
  else if barSize bar < ofs / 2 * 2 + 2 * data.length then s
  else blkAdd { wr := true, next := barBase bar s + ofs / 2, left := data } s

/-- PCIE_WRITE_REQUEST. -/
def execPcieWriteRequest (bar : BitVec 2) (ofs : W32) (data : List (Word × BitVec 2)) (s : State) :
    Host.Outcome State Fault Refusal :=
  act s (pcieWrite bar.toNat ofs.toNat data)

/-- The I3C window and the bulk port go on with what they have in hand. -/
def hostGo (s : State) : State :=
  let t := winGo s
  blkGo t.bulk.jobs.length t

end Sys2Proof.Machine
end

