-- ==== Sys2Proof/Machine/FlueData.lean ====
section
/-! DEFINITION. Flue packets that arrive (R274, R279, R282 to R285, R290): requests executed here and answered, completions
given to their requesters, packets for other devices forwarded. -/
namespace Sys2Proof.Machine
open Sys2Proof

/-- The word address in a request's first payload block. -/
def pktAddr (k : Packet) : Nat := valOf (k.payload.take 2)

/-- The words from i on, all zero. -/
def zeroFrom (i : Nat) (ws : List Word) : Bool := (ws.drop i).all fun w => w == 0

/-- Whether a packet of a type is formed as R274 says: LEN as the type has it, CNT in its range, reserved bits 0. -/
def pktOk (typ : Nat) (k : Packet) : Bool :=
  let len := k.len.toNat
  let w (i : Nat) : Word := nth k.payload i
  k.payload.length == 4 * len &&
    (if isCpl typ then
      (if typ = 8 then decide (k.cnt.toNat ≤ 7) && len == (if k.stat = 0 then k.cnt.toNat / 4 + 1 else 0)
       else if typ = 10 then len == (if k.stat = 0 then 1 else 0)
       else len == 0)
     else k.stat == 0 &&
      (if typ = 1 then len == 1 && decide (k.cnt.toNat ≤ 7) && zeroFrom 2 k.payload
       else if typ = 2 then len == 3 && decide (k.cnt.toNat ≤ 7) && w 2 == 0 && w 3 == 0 && zeroFrom (5 + k.cnt.toNat) k.payload
       else if typ = 3 then len == 2 && k.cnt == 0 && fld (w 2) 14 3 == 0 && decide (fld (w 2) 2 0 ≤ 4) && w 3 == 0
       else len == 2 && k.cnt == 0 && fld (w 0) 15 13 == 0 && fld (w 1) 11 0 == 0 && zeroFrom 5 k.payload))

/-- A packet that has arrived on port p: refused, forwarded, or consumed by f (R276, R277, R279). -/
def flArrive (p typ : Nat) (k : Packet) (f : State → State) (s : State) : State :=
  if !flUp p s || isolated s then s
  else if k.seq ≠ (flue p s).rxSeq then flReject p .order (isCpl typ) s
  else if !pktOk typ k then flReject p .malformed (isCpl typ) s
  else
    let s1 := flAccept p (isCpl typ) s
    if k.dest.toNat ≠ devNum s then flForward p typ k s1 else f s1

/-- A request for this device (R283, R290): ISOLATED for a fenced source, else f; SRC is noted for the write log. -/
def flServe (p typ : Nat) (k : Packet) (f : State → State) (s : State) : State :=
  flArrive p typ k (fun t =>
    if bit (routeW k.src.toNat t) 14 then flReply (cplOf typ) k 5 (rwCnt typ k) [] t
    else f { t with flueSrc := k.src }) s

/-- What the n words at a for a request from port p name: this device's own flue windows are refused, as are unmapped ranges
(R283); none when some word is refused. -/
def flPlaces (p a : Nat) : Nat → State → Option (List Place)
  | 0, _ => some []
  | n + 1, s =>
    match (if a < 2 ^ 32 then extPlace (.flue (BitVec.ofNat 2 p)) a s else .unmapped) with
    | .unmapped | .flue _ => none
    | x => (flPlaces p (a + 1) n s).map fun xs => x :: xs

/-- The memory words of places, none when one of them is a register. -/
def memKeys (ps : List Place) : Option (List Nat) :=
  if ps.all fun x => match x with | .mem _ => true | _ => false then
    some (ps.filterMap fun x => match x with | .mem k => some k | _ => none)
  else none

/-- A request of port p that has no answer at its target (R236, R283): it is answered with BUSERR, and whether its access has
taken effect is a free value; otherwise g. -/
def portAccess (p typ : Nat) (k : Packet) (effect g : State → State) (s : State) : State :=
  let r : BusReq := .port (BitVec.ofNat 2 p)
  if s.mute.contains r then flReply (cplOf typ) k 2 (rwCnt typ k) [] (unheard r effect s) else g s

/-- A read request is executed (R283). -/
def serveRead (p : Nat) (k : Packet) (s : State) : State :=
  let n := k.cnt.toNat + 1
  match flPlaces p (pktAddr k) n s with
  | none => flReply 8 k 1 k.cnt.toNat [] s
  | some ps =>
    let get (t : State) : List Word × Bool × State :=
      match memKeys ps with
      | some ks => memReadKeys ks t
      | none => let r := busReads (.flue (BitVec.ofNat 2 p)) (pktAddr k) n t; (r.1, false, r.2)
    portAccess p 1 k (fun t => (get t).2.2) (fun t =>
      let r := get t
      if r.2.1 then flReply 8 k 3 k.cnt.toNat [] r.2.2 else flReply 8 k 0 k.cnt.toNat (padBlocks r.1) r.2.2) s

/-- RDREQ. -/
def execRdreq (p : PortNo) (pkt : Packet) (s : State) : Host.Outcome State Fault Refusal :=
  act s (flServe p.toNat 1 pkt (serveRead p.toNat pkt))

/-- A write request is executed (R283). -/
def serveWrite (p : Nat) (k : Packet) (s : State) : State :=
  let n := k.cnt.toNat + 1
  let ws := (k.payload.drop 4).take n
  match flPlaces p (pktAddr k) n s with
  | none => flReply 9 k 1 k.cnt.toNat [] s
  | some ps =>
    let put (t : State) : State := match memKeys ps with
      | some ks => memStore (ks.zip ws) t
      | none => busWrites (.flue (BitVec.ofNat 2 p)) (pktAddr k) ws t
    portAccess p 2 k put (fun t => flReply 9 k 0 k.cnt.toNat [] (put t)) s

/-- WRREQ. -/
def execWrreq (p : PortNo) (pkt : Packet) (s : State) : Host.Outcome State Fault Refusal :=
  act s (flServe p.toNat 2 pkt (serveWrite p.toNat pkt))

/-- What an atomic access stores for the old value m and the operands Dn and Dm (R156, R274), none when CAS stores not. -/
def atomNew (subop bits m dn dm : Nat) : Option Nat :=
  if subop = 0 then some dn
  else if subop = 1 then some ((m + dn) % 2 ^ bits)
  else if subop = 2 then some (m &&& dn)
  else if subop = 3 then some (m ||| dn)
  else if m = dn then some dm else none

/-- An atomic request is executed (R126, R282): indivisible, on memory only. -/
def serveAtom (p : Nat) (k : Packet) (s : State) : State :=
  let wide := bit (nth k.payload 2) 15
  let n := if wide then 2 else 1
  let opnd (i : Nat) : Nat := valOf ((k.payload.drop i).take 2) % 2 ^ (16 * n)
  match (flPlaces p (pktAddr k) n s).bind memKeys with
  | none => flReply 10 k 1 0 [] s
  | some ks =>
    let run (u : State) : Nat × Bool × State :=
      let r := memReadKeys ks u
      let m := valOf r.1
      (m, r.2.1, if r.2.1 then r.2.2 else match atomNew (fld (nth k.payload 2) 2 0) (16 * n) m (opnd 4) (opnd 6) with
        | none => r.2.2
        | some v => memStore (ks.zip (wordsOf n v)) r.2.2)
    portAccess p 3 k (fun t => (run t).2.2) (fun t =>
      let r := run t
      if r.2.1 then flReply 10 k 3 0 [] r.2.2 else flReply 10 k 0 0 (wordsOf 2 r.1 ++ [0, 0]) r.2.2) s

/-- ATREQ. -/
def execAtreq (p : PortNo) (pkt : Packet) (s : State) : Host.Outcome State Fault Refusal :=
  act s (flServe p.toNat 3 pkt (serveAtom p.toNat pkt))

/-- An operation request is executed, with HSEQ 0 (R284). -/
def serveOp (k : Packet) (s : State) : State :=
  let w (i : Nat) : Word := nth k.payload i
  let r := operate (fld (w 1) 15 12) (fld (w 0) 12 0) (valOf [w 2, w 3]) (w 4) 0 s
  flReply 11 k 0 r.1 [] r.2

/-- OPREQ. -/
def execOpreq (p : PortNo) (pkt : Packet) (s : State) : Host.Outcome State Fault Refusal :=
  act s (flServe p.toNat 4 pkt (serveOp pkt))

/-- A completion for this device reaches its requester (R282, R284, R285); the I3C window and the bulk port go on. -/
def flComplete (p typ : Nat) (k : Packet) (s : State) : State :=
  flArrive p typ k (fun t => hostGo (flueAnswer k.tag.toNat k.stat.toNat k.cnt.toNat k.payload t)) s

/-- RDCPL. -/
def execRdcpl (p : PortNo) (pkt : Packet) (s : State) : Host.Outcome State Fault Refusal := act s (flComplete p.toNat 8 pkt)
/-- WRCPL. -/
def execWrcpl (p : PortNo) (pkt : Packet) (s : State) : Host.Outcome State Fault Refusal := act s (flComplete p.toNat 9 pkt)
/-- ATCPL. -/
def execAtcpl (p : PortNo) (pkt : Packet) (s : State) : Host.Outcome State Fault Refusal := act s (flComplete p.toNat 10 pkt)
/-- OPCPL. -/
def execOpcpl (p : PortNo) (pkt : Packet) (s : State) : Host.Outcome State Fault Refusal := act s (flComplete p.toNat 11 pkt)

/-- A write of val to the register, or memory word, at a word address by a source: the register's own rule and, for a
configuration-class register, the count and the log (R15 to R17, R371). -/
def registerWrite (src : Src) (a : Nat) (val : Word) (s : State) : State :=
  match (match src with
         | .stoker sub => subPlace sub.toNat a s
         | .boot => place none none a s
         | _ => extPlace src a s) with
  | .reg x => busWrite src x val s
  | .mem _ | .flue _ | .unmapped => s

/-- REGISTER_WRITE. -/
def execRegisterWrite (src : Src) (addr : W32) (val : Word) (s : State) : Host.Outcome State Fault Refusal :=
  act s (registerWrite src addr.toNat val)

end Sys2Proof.Machine
end

