-- ==== Sys2Proof/Machine/Boot.lean ====
section
/-! DEFINITION. The boot loader's stages (R356 to R362): the end of a stage, and the records read and applied; the end of a
quote's digest (R369), which reads every configuration-class register. -/
namespace Sys2Proof.Machine
open Sys2Proof

/-- The boot loader goes on with stage n. -/
def bootStage (n : Nat) (s : State) : State := modBoot (fun b => { b with stage := n }) s

/-- The first words of an image, as many as header, directory and signature take (R352). -/
def imgTake (ws : List Word) : List Word := (span 0 (imgHead ws)).map fun i => nth ws i

/-- The header and directory bytes that H digests (R357). -/
def imgDigest (img : List Word) : List Word := Config.shake256 (bytesOf (img.take (64 + 24 * imgNrec img)))

/-- The signature words of an image (R352). -/
def imgSig (img : List Word) : List Word := (img.drop (64 + 24 * imgNrec img)).take 1410

/-- MIN_VER of a key slot in ember MRAM (R360, R365). -/
def minVer (slot : Nat) (s : State) : Nat := valOf [mramGet (0x80C0 + 2 * slot) s, mramGet (0x80C1 + 2 * slot) s]

/-- The key slot is filled and not revoked, and PUBKEY has its hash (R360). -/
def keyOk (img : List Word) (s : State) : Bool :=
  let k := imgSlot img
  match s.tap.keys.find? fun kv => kv.1 == k with
  | none => false
  | some kv => !bit s.tap.revoked k && valOf (Config.shake256 (bytesOf (imgKey img))) == kv.2.toNat

/-- The signature is that of the public key, whose OID is the one R360 names, on H (R357). -/
def sigOk (img : List Word) : Bool :=
  valOf ((imgKey img).take 2) == Config.xmssOid.toNat && Config.xmssVerify (imgKey img) (imgDigest img) (imgSig img)

/-- Stage 1 ends (R357, R366): the known-answer check, the signing index, then the flash or a push. -/
def bootKat (katOk : Bool) (s : State) : State :=
  if !katOk then raise 4 0 0 (bootRefuse 10 (modSec (fun x => { x with katOk := false }) s))
  else
    let s1 := idxCheck (modSec (fun x => { x with katOk := true }) s)
    let src := s.boot.src.toNat
    if src = 2 then waitPush (srcNo .i3c) s1
    else if src = 3 then waitPush (srcNo .bulk) s1
    else modBoot (fun b => { b with stage := 2, bankB := src == 1 }) s1

/-- Stage 2 ends (R356, R357): flash discovery, and the header, directory and signature as read. -/
def bootFlash (i : BootInfo) (s : State) : State :=
  if !i.flashOk then bootRefuse 1 s
  else
    let s1 := modBoot (fun b => { b with octal := i.octal, capWords := i.capWords }) s
    if !headerOk i.words (i.capWords / 2) then bootRefuse 2 s1
    else modBoot (fun b => { b with img := imgTake i.words, stage := 3, rereads := 0 }) s1

/-- The failed signature check rereads header, directory and signature, each time an occurrence of BT_FLASH, at most three
times (R358). -/
def bootReread (i : BootInfo) (s : State) : State :=
  if s.boot.pushing || 3 ≤ s.boot.rereads then bootRefuse 4 s
  else
    let s1 := raise 3 1 0 (modBoot (fun b => { b with rereads := b.rereads + 1, img := imgTake i.words }) s)
    if headerOk i.words (s.boot.capWords / 2) then s1 else bootRefuse 2 s1

/-- Training begins: GD_CTL takes GDCTL (R357). -/
def bootTrain (s : State) : State :=
  setRgBit 9 1 5 true (busWrite .boot (ra 9 0) (nth s.boot.img 9)
    (modBoot (fun b => { b with stage := 4, recNo := 0, rec_ := [], rereads := 0 }) s))

/-- Stage 3 ends: the key, rollback, signature and directory checks (R357, R360, R362). -/
def bootVerify (i : BootInfo) (s : State) : State :=
  let img := s.boot.img
  if !keyOk img s then bootRefuse 3 s
  else if imgVer img < minVer (imgSlot img) s then bootRefuse 5 s
  else if !sigOk img then bootReread i s
  else if !dirOk img then bootRefuse 6 s
  else bootTrain s

/-- Stage 4 ends: READY, and each GDDR6 device trained, or out of service: it is retired, and GD_TRAIN is permanent (R238,
R242). Accesses that waited for it go on. -/
def bootTrained (i : BootInfo) (s : State) : State :=
  let s1 := setRgBit 9 1 0 true (setRgBit 9 1 5 false s)
  let s2 := forAll (span 0 4) (fun d t =>
    if bit i.trained d then setRgBit 9 1 (8 + d) true t
    else addDue (.fault 9 2 true false (wd d) true) (retireGd d (setRgBit 9 1 (8 + d) false t))) s1
  bootStage 5 (hostGo (forAll (span 0 64) cqStart s2))

/-- The lane's quad has locked the PLL that its mode needs (R254, R357). -/
def lanePllOk (l : Nat) (s : State) : Bool :=
  let m := laneMode l s
  if m < 2 then true else bit (rg (bQd (l / 4)) 0 s) (if m < 5 then 15 else 14)

/-- Stage 6 ends when every quad PLL that a written LN_MODE needs has locked (R357). -/
def bootLanes (s : State) : State := if (span 0 32).all fun l => lanePllOk l s then bootStage 7 s else s

/-- R37 holds for both tables of every stoker, under the frame timer values as loaded. -/
def bootTablesOk (s : State) : Bool :=
  let f := s.ft
  let p := f.pendPeriod.getD f.period
  let a := (f.pendAsh.map fun w => w.toNat).getD f.ash
  let k := (f.pendK.map fun w => w.toNat).getD f.k
  (schedStokers s).all fun n => tableFail n false p a k s == 0 && tableFail n true p a k s == 0

/-- Stage 8 (R357, R359, R361): FRM_CTL takes FRMCTL and the holds end; the image's version, hash and boot record; then the
revocations and the raised minimum version. -/
def bootRun (s : State) : State :=
  let img := s.boot.img
  let w3 := nth img 3
  let s1 := bootStage 8 s
  let s2 := setRgs 3 0x10 ((span 0 16).map fun i => nth (imgDigest img) i) (setRgs 3 4 (wordsOf 2 (imgVer img)) s1)
  let s3 := bootRecord (busWrite .boot (ra 0 0) (nth img 10) s2)
  let s4 := modTap (fun t => { t with revoked := t.revoked ||| BitVec.ofNat 4 (fld w3 11 8) }) s3
  let s5 := if bit w3 13 && decide (minVer (imgSlot img) s4 < imgVer img) && s4.pwr.emberOk then
    mramPuts (0x80C0 + 2 * imgSlot img) (wordsOf 2 (imgVer img)) s4 else s4
  forAll ((s5.stk.map fun kv => kv.1) ++ (s5.ctx.map fun kv => stkOf kv.1)).eraseDups (fun k => addDue (.resched k))
    (forAll (span 0 4) flStart s5)

/-- Stage 7 ends: one pin calibration, and the schedule check (R357). -/
def bootCheck (i : BootInfo) (s : State) : State :=
  let s1 := forAll (span 0 16) (fun b => bankCal (bit i.calFail b) b) s
  if bootTablesOk s1 then bootRun s1 else bootRefuse 8 s1

/-- The stage in hand is complete (R357). -/
def bootComplete (i : BootInfo) (s : State) : State :=
  match s.boot.stage with
  | 1 => bootKat i.katOk s
  | 2 => bootFlash i s
  | 3 => bootVerify i s
  | 4 => bootTrained i s
  | 5 => if s.boot.recNo = imgNrec s.boot.img then bootStage 6 s else s
  | 6 => bootLanes s
  | 7 => bootCheck i s
  | _ => s

/-- BOOT_STAGE_COMPLETE. -/
def execBootStageComplete (info : BootInfo) (s : State) : Host.Outcome State Fault Refusal := act s (bootComplete info)

/-! ### Records (R355, R358) -/

/-- The triples of a register record: address and value. -/
def triples : List Word → List (Nat × Word)
  | a :: b :: v :: r => (valOf [a, b], v) :: triples r
  | _ => []

/-- An address that a triple of a record type may name (R355). -/
def tripleOk (typ a : Nat) : Bool :=
  let o := a % 0x10000
  decide (0x20000000 ≤ a) && decide (a < 0x30000000) && a != ra 0 0 &&
    (if typ = 6 then (a - 0x20000000) / 0x10000 == 0xA
     else if typ = 7 then (decide (0x7000 ≤ o) && decide (o < 0x7050)) ||
       ((a - 0x20000000) / 0x10000 == 6 && decide (o < 0x40))
     else true)

/-- The register writes of a register record, none when a triple is malformed (R355). -/
def recWrites (e : List Word) (ws : List Word) : Option (List (Nat × Word)) :=
  let t := entTarget e
  if entType e = 3 then
    some ((span 0 128).map fun i => (ra (bStk (t % 512)) (slotOfs (decide (65536 ≤ t)) 0 + i), nth ws i))
  else if entType e = 5 then
    some ((span 0 ws.length).map fun i =>
      (ra (bGrt (t % 64)) (0x1000 + 4 * (t / 256 % 256 + i / 3) + i % 3), nth ws i))
  else
    let ts := triples ws
    if ts.all fun x => tripleOk (entType e) x.1 then some ts else none

/-- What a word of a memory record names (R355). -/
def recPlace (e : List Word) (i : Nat) (s : State) : Place :=
  if bit (nth e 0) 0 then deepPlace (entTarget e + i) s else place none none (entTarget e + i) s

/-- A memory record's range is memory that is in service, first word to last, and every GDDR6 device between (R242, R362). -/
def recRangeOk (e : List Word) (s : State) : Bool :=
  match recPlace e 0 s, recPlace e (entLen e - 1) s with
  | .mem a, .mem b =>
    isSram a || ((span 0 4).all fun d =>
      !gdRet d s || decide (d < (gdUnit a s).toNat) || decide ((gdUnit b s).toNat < d))
  | _, _ => false

/-- Words of a memory record are written as they stream, from its word i on. -/
def recStream (e : List Word) (i : Nat) : List Word → State → State
  | [], s => s
  | w :: ws, s =>
    recStream e (i + 1) ws (match recPlace e i s with | .mem k => memStore [(k, w)] s | _ => s)

/-- The record in hand is complete and its digest is right: a register record is applied; the next record (R358). -/
def recApply (e : List Word) (s : State) : State :=
  let next (t : State) : State :=
    let n := t.boot.recNo + 1
    modBoot (fun b => { b with recNo := n, rec_ := [], rereads := 0 }) t
  if !entIsReg e then next s
  else match recWrites e s.boot.rec_ with
    | none => bootRefuse 6 s
    | some ws => next (ws.foldl (fun t aw => busWrite .boot aw.1 aw.2 t) s)

/-- A record fails its check: it is read again, at most three times, each time an occurrence of BT_FLASH (R358). -/
def recBad (s : State) : State :=
  if s.boot.pushing || 3 ≤ s.boot.rereads then bootRefuse 7 s
  else raise 3 1 0 (modBoot (fun b => { b with rereads := b.rereads + 1, rec_ := [] }) s)

/-- Words of the record in hand arrive (R358). -/
def recWords (ws : List Word) (s : State) : State :=
  let e := dirEnt s.boot.img s.boot.recNo
  let have_ := s.boot.rec_.length
  let s0 := setRg 3 6 (wd s.boot.recNo) s
  if !entIsReg e && !recRangeOk e s0 then bootRefuse 6 s0
  else
    let s1 := if entIsReg e then s0 else recStream e have_ ws s0
    let s2 := modBoot (fun b => { b with rec_ := b.rec_ ++ ws }) s1
    if s2.boot.rec_.length < entLen e then s2
    else if Config.shake256 (bytesOf s2.boot.rec_) = e.drop 8 then recApply e s2
    else recBad s2

/-- The loader reads on in the record in hand: from the flash, or from the push buffer. -/
def recordRead (data : List Word) (s : State) : State :=
  let b := s.boot
  if b.stage != 5 || b.recNo = imgNrec b.img then s
  else
    let need := entLen (dirEnt b.img b.recNo) - b.rec_.length
    if b.pushing then recWords (b.pushed.take need) (modBoot (fun x => { x with pushed := x.pushed.drop need }) s)
    else recWords (data.take need) s

/-- BOOT_RECORD_READ. -/
def execBootRecordRead (data : List Word) (s : State) : Host.Outcome State Fault Refusal := act s (recordRead data)

/-! ### The configuration digest (R369) -/

/-- Offsets of the configuration-class registers of a row. -/
def rowOffsets (r : Row) : List Nat :=
  if r.cfg then (span 0 r.n2).flatMap fun j => (span 0 r.n1).map fun i => r.off + i * r.st1 + j * r.st2 else []

/-- Word addresses of the configuration-class registers of block index n, rising. -/
def cfgOffsets (n : Nat) : List Nat :=
  ((baseRows (blkOf n) ++ (if fltSources (blkOf n) = [] then [] else fltRows (fltSources (blkOf n)))).flatMap
    rowOffsets).mergeSort (fun a b => decide (a ≤ b)) |>.map fun o => ra n o

/-- The bytes the digest covers: the address and value of every configuration-class register, in address order (R369). -/
def cfgBytes (s : State) : List Byte :=
  ((span 0 0x300).flatMap cfgOffsets).flatMap fun a => bytesOf (wordsOf 2 a ++ [regView .boot a s])

/-- k free words. -/
def freshWords : Nat → State → List Word × State
  | 0, s => ([], s)
  | k + 1, s =>
    let r := freshWord s
    let q := freshWords k r.2
    (r.1 :: q.1, q.2)

/-- The digest of a try is there (R369): a try that a configuration write disturbed is made again, at most three times, and
the fourth stands as unstable with a digest that nothing fixes. -/
def quoteDigest (s : State) : State :=
  if !quoteRuns s || s.sec.signing then s
  else if s.sec.cfgGen ≠ s.sec.g0 && decide (s.sec.tries < 4) then quoteTry s
  else
    let stable := s.sec.cfgGen == s.sec.g0
    let d := if stable then (Config.shake256 (cfgBytes s), s) else freshWords 16 s
    let s1 := modSec (fun x => { x with unstable := !stable }) d.2
    modSec (fun x => { x with signing := true, words := quoteWords d.1 s1 }) s1

/-- QUOTE_DIGEST_COMPLETE. -/
def execQuoteDigestComplete (s : State) : Host.Outcome State Fault Refusal := act s quoteDigest

end Sys2Proof.Machine
end

