-- ==== Sys2Proof/Machine/Flags.lean ====
section
/-! DEFINITION. Integer results and their flags over a width of w bits (R149, R165, R166), the multiplier (R167), and the
divider (R169, R170). -/
namespace Sys2Proof.Machine
open Sys2Proof

/-- A result and the flags it gives; none for a flag that the operation leaves unchanged. -/
structure Alu where
  res : Nat
  z : Bool
  n : Bool
  c : Option Bool
  v : Option Bool
deriving DecidableEq, Repr

/-- A result of w bits with Z and N taken from it. -/
def zn (w r : Nat) (c v : Option Bool) : Alu :=
  { res := r % 2 ^ w, z := decide (r % 2 ^ w = 0), n := decide (2 ^ (w - 1) ≤ r % 2 ^ w), c := c, v := v }

/-- Whether an integer lies in the signed range of w bits. -/
def inRange (w : Nat) (i : Int) : Bool := decide (-(2 ^ (w - 1) : Int) ≤ i) && decide (i < (2 ^ (w - 1) : Int))

/-- a + b + carry (R165). -/
def aluAdd (w a b cin : Nat) : Alu :=
  zn w (a + b + cin) (some (decide (2 ^ w ≤ a + b + cin))) (some (!inRange w (sx w a + sx w b + cin)))

/-- a − b − borrow; C is the borrow (R165). -/
def aluSub (w a b bin : Nat) : Alu :=
  zn w (tc w ((a : Int) - b - bin)) (some (decide (a < b + bin))) (some (!inRange w (sx w a - sx w b - bin)))

/-- A logic result: Z, N from it, V cleared, C unchanged (R149, ZN0). -/
def aluLogic (w r : Nat) : Alu := zn w r none (some false)

/-- A left shift by n one-bit shifts (R149). -/
def aluShl (w a n : Nat) : Alu :=
  if n = 0 then zn w a none (some false)
  else zn w (a <<< n) (some (decide (((a <<< n) / 2 ^ w) % 2 = 1))) (some false)

/-- A logical right shift. -/
def aluShr (w a n : Nat) : Alu :=
  if n = 0 then zn w a none (some false)
  else zn w (a >>> n) (some (decide ((a >>> (n - 1)) % 2 = 1))) (some false)

/-- An arithmetic right shift. -/
def aluSar (w a n : Nat) : Alu :=
  if n = 0 then zn w a none (some false)
  else zn w (tc w (sx w a >>> n)) (some (decide (tc w (sx w a >>> (n - 1)) % 2 = 1))) (some false)

/-- A left rotate by n one-bit rotates; C is the last bit moved into bit 0. -/
def aluRol (w a n : Nat) : Alu :=
  if n = 0 then zn w a none (some false)
  else
    let r := ((a <<< (n % w)) ||| (a >>> (w - n % w))) % 2 ^ w
    zn w r (some (decide (r % 2 = 1))) (some false)

/-- FLAGS with Z [3], N [2], C [1], V [0] taken from a result (R117); none given leaves a flag. -/
def putFlags (f : Word) (r : Alu) : Word :=
  let f1 := setBit (setBit f 3 r.z) 2 r.n
  let f2 := match r.c with | some b => setBit f1 1 b | none => f1
  match r.v with | some b => setBit f2 0 b | none => f2

/-- The condition cc of a branch (R148); 15 is no condition. -/
def condHolds (cc : Nat) (f : Word) : Bool :=
  let z := bit f 3
  let n := bit f 2
  let c := bit f 1
  let v := bit f 0
  match cc with
  | 0 => z
  | 1 => !z
  | 2 => c
  | 3 => !c
  | 4 => n
  | 5 => !n
  | 6 => v
  | 7 => !v
  | 8 => !c && !z
  | 9 => c || z
  | 10 => n == v
  | 11 => n != v
  | 12 => !z && n == v
  | 13 => z || n != v
  | 14 => true
  | _ => false

/-- The product as the P set it lands: the sign or zero extension of a 32-bit product, or the 64-bit product (R115,
R167). -/
def product (signed wide : Bool) (a b : Nat) : Nat :=
  let w := if wide then 32 else 16
  if signed then tc 64 (sx w a * sx w b) else a * b

/-- What a divide writes: QUO, REM, V and whether DZ is set (R169, R170). A 32/16 result is held in 16 bits with bits
[31:16] copies of bit 15 (R115). -/
def divide (signed wide : Bool) (dividend divisor : Nat) : Nat × Nat × Bool × Bool :=
  let w := if wide then 32 else 16
  let ext (v : Nat) : Nat := if wide then v % 2 ^ 32 else tc 32 (sx 16 v)
  if divisor = 0 then (0xFFFFFFFF, ext dividend, true, true)
  else if signed then
    let a := sx 32 dividend
    let b := sx w divisor
    let q := a.tdiv b
    if inRange w q then (ext (tc w q), ext (tc w (a.tmod b)), false, false)
    else (ext (if 0 < q then 2 ^ (w - 1) - 1 else 2 ^ (w - 1)), 0, true, false)
  else
    let q := dividend / divisor
    if q < 2 ^ w then (ext q, ext (dividend % divisor), false, false) else (ext (2 ^ w - 1), 0, true, false)

end Sys2Proof.Machine
end

