-- ==== Sys2Proof/Machine/Issue.lean ====
section
/-! DEFINITION. Issuing a stoker instruction (R109 to R113, R133, R157 to R163): legality, repetition, hardware loops,
memory access with posted stores and the speculative store buffer (R96 to R99, R122 to R126), and the end of an
instruction by completion, fault, stall or pause. -/
namespace Sys2Proof.Machine
open Sys2Proof

/-- Why an instruction does not complete: a fault with its address, a stall, a pause of the speculative path, or the sleep of
a WAIT: the address after it, whether it wakes at once, its wake bits. -/
inductive Halt where
  | fault (code addr : Nat)
  | stall (long : Bool) (w : Stall)
  | pause (cause : Nat)
  | sleep (next : BitVec 24) (now tk ev : Bool)
deriving DecidableEq, Repr

/-- What a part of an instruction gives: a value with the context and the state so far, or an end without effect; the
state then holds only what outlives the instruction (an error recorded, a flue request sent). -/
inductive Out (α : Type) where
  | ok (a : α) (c : Ctx) (s : State)
  | halt (h : Halt) (s : State)

/-- Go on with what a part gave. -/
def Out.next {α β : Type} (o : Out α) (f : α → Ctx → State → Out β) : Out β :=
  match o with
  | .ok a c s => f a c s
  | .halt h s => .halt h s

/-- A commit point (R97): a speculative path pauses, and the runaway count restarts (R57). -/
def commitPoint (sub : Nat) (c : Ctx) (s : State) : Out Unit :=
  if onPath sub s then .halt (.pause 1) s
  else .ok () c (modSch sub (fun x => { x with runaway := 0 }) s)

/-! ### Memory access -/

/-- The newest queued value of an address among stores (R99, R124). -/
def newest (a : Nat) (q : List Store) : Option Word :=
  q.foldl (fun acc st => match (st.addr.zip st.words).find? fun p => p.1 == a with | some p => some p.2 | none => acc) none

/-- The stores a load of this context sees: posted ones, those that drain, then those of its path. -/
def visible (sub : Nat) (c : Ctx) (s : State) : List Store :=
  c.posted ++ c.drain ++ (match specOf sub s with | some p => p.sbuf | none => [])

/-- The prefetched word of a place, where the buffer holds words of the CCW the context works on (R89). -/
def prefetched (sub a : Nat) (s : State) : Option Word :=
  let x := sch sub s
  let now := match specOf sub s with | some p => p.x.addr | none => x.ccw
  if x.preFor = now then (x.prefetch.find? fun p => p.1 == a).map fun p => p.2 else none

/-- What a load finds without an access: a queued store's value, or a prefetched word. -/
def buffered (sub : Nat) (c : Ctx) (p : Place) (s : State) : Option Word :=
  match newest (placeAddr p) (visible sub c s) with
  | some w => some w
  | none => match p with
    | .mem k => prefetched sub k s
    | .flue a => prefetched sub a s
    | .reg _ | .unmapped => none

/-- What a speculative path reads for its own SCH_CCW, SCH_CUR_ADDR and SCH_CUR_CNT (R94). -/
def pathReg (sub a : Nat) (s : State) : Option Word :=
  match specOf sub s with
  | none => none
  | some p =>
    let o := ra (bStk (stkOf sub)) (schOfs sub 0)
    if a = o + 0x12 then some (wordOf 2 0 p.x.addr.toNat)
    else if a = o + 0x13 then some (wordOf 2 1 p.x.addr.toNat)
    else if a = o + 0x14 then some (wordOf 2 0 p.curAddr.toNat)
    else if a = o + 0x15 then some (wordOf 2 1 p.curAddr.toNat)
    else if a = o + 0x16 then some (wd p.curCnt)
    else none

/-- A place whose load is a short stall: own firebox SRAM or the stoker's own registers (R122). -/
def nearPlace (sub : Nat) : Place → Bool
  | .mem k => decide (0x11000000 ≤ k) && decide (k < 0x12000000) && (k - 0x11000000) / 0x40000 == subFbx sub
  | .reg a => (a - 0x20000000) / 0x10000 == bStk (stkOf sub)
  | _ => false

/-- Note an access of the load instruction in hand: its first address and places. -/
def noteLoad (sub addr : Nat) (ps : List Place) (old : List (Nat × Word)) (s : State) : State :=
  let e : LoadWait := mget {} sub s.loads
  let ks := ps.filterMap fun p => match p with | .mem k => some k | _ => none
  { s with loads := mput sub { e with
      accs := e.accs ++ [(addr, ks)], old := e.old ++ old
      sbuf := ((specOf sub s).map fun p => p.sbuf.length).getD 0
      long := e.long || ps.any fun p => !nearPlace sub p } s.loads }

/-- Read the words of the places, newest queued value first; whether an error is uncorrectable. -/
def readPlaces (sub : Nat) (c : Ctx) : List Place → State → List Word × Bool × State
  | [], s => ([], false, s)
  | p :: ps, s =>
    let r : Word × Bool × State :=
      match buffered sub c p s with
      | some w => (w, false, s)
      | none =>
        match p with
        | .mem k => if onPath sub s then memReadQuiet k s else memRead k s
        | .reg a =>
          (match pathReg sub a s with
           | some w => (w, false, s)
           | none => let b := busRead (.stoker (BitVec.ofNat 13 sub)) a s; (b.1, false, b.2))
        | .flue a => (((c.got.find? fun g => g.1 == a).map fun g => g.2).getD 0, false, s)
        | .unmapped => (0, false, s)
    let q := readPlaces sub c ps r.2.2
    (r.1 :: q.1, r.2.1 || q.2.1, q.2.2)

/-- The context has asked the flue for the word at a window address. -/
def asked (sub a : Nat) (s : State) : Bool :=
  s.outst.any fun kv => match kv.2 with | .load n b m => n == sub && decide (b ≤ a) && decide (a < b + m) | _ => false

/-- Ask the flue for the words of an access that are not here yet, a request for each run of addresses (R282); addresses wrap
in their bank (R116). -/
def askFlue (sub : Nat) (as : List Nat) (s : State) : State :=
  (flReads 0 (as.filter fun a => !asked sub a s) (.load sub) s).2

/-- Load words at word addresses (R23, R122 to R124): a fault before any access, a pause, a stall, or the words. -/
def ldWords (sub : Nat) (as : List Nat) (c : Ctx) (s : State) : Out (List Word) :=
  let ps := as.map fun a => subPlace sub a s
  let a0 := as.headD 0
  let away := ps.filter fun p => isFluePlace p && (buffered sub c p s).isNone &&
    (c.got.find? fun g => g.1 == placeAddr p).isNone
  if ps.contains .unmapped then .halt (.fault 0x0A a0) s
  else if onPath sub s && ps.any (fun p => isFluePlace p || (match p with | .reg a => regSide a | _ => false)) then
    .halt (.pause 1) s
  else if !away.isEmpty then
    (if tagsFree away.length s then .halt (.stall true .flue) (askFlue sub (away.map placeAddr) s) else .halt (.stall true .posted) s)
  else
    let s0 := if ps.any (fun p => isFluePlace p || (match p with | .reg a => regSide a | _ => false)) then
      modSch sub (fun x => { x with runaway := 0 }) s else s
    let r := if ps = (span dtbAddr 4).map Place.reg then (wordsOf 4 s0.ft.dtb, false, s0) else readPlaces sub c ps s0
    if r.2.1 then .halt (.fault 0x0C a0) r.2.2
    else .ok r.1 c (if ps.all isFluePlace then r.2.2
      else noteLoad sub a0 (ps.filter fun p => (buffered sub c p s).isNone) [] r.2.2)

/-- A store joins the posted-store queue; through a flue window its requests go out at once (R124, R282). -/
def postStore (sub : Nat) (ps : List Place) (ws : List Word) (c : Ctx) (s : State) : Out Unit :=
  let k := stkOf sub
  let st : Store := { addr := ps.map placeAddr, words := ws, pc := c.pc, seq := (stk k s).issued }
  let s1 := modStk k (fun x => { x with issued := x.issued + 1 }) s
  if ps.any isFluePlace then
    if tagsFree ws.length s then
      let r := flWrites 0 st.addr ws (fun _ => .store sub) s1
      .ok () { c with posted := c.posted ++ [{ st with tags := r.1.map fun t => BitVec.ofNat 8 t }] } r.2
    else .halt (.stall true .posted) s
  else .ok () { c with posted := c.posted ++ [st] } s1

/-- The store buffer of the path takes stores, one entry of up to 4 words each (R99, R182). -/
def bufStore (sub : Nat) (ps : List Place) (ws : List Word) (c : Ctx) (s : State) : Out Unit :=
  let n := (ws.length + 3) / 4
  let entry (j : Nat) : Store := { addr := ((ps.map placeAddr).drop (4 * j)).take 4, words := (ws.drop (4 * j)).take 4, pc := c.pc }
  match specOf sub s with
  | none => .ok () c s
  | some p =>
    if 16 < p.sbuf.length + n then .halt (.pause 2) s
    else .ok () c (modStk (stkOf sub) (fun x => { x with
      spec := x.spec.map fun q => { q with sbuf := q.sbuf ++ (span 0 n).map entry } }) s)

/-- Store words at word addresses (R96, R97, R124). -/
def stWords (sub : Nat) (as : List Nat) (ws : List Word) (c : Ctx) (s : State) : Out Unit :=
  let ps := as.map fun a => subPlace sub a s
  if ps.contains .unmapped then .halt (.fault 0x0A (as.headD 0)) s
  else if ps.all isMemPlace then
    (if onPath sub s then bufStore sub ps ws c s
     else if 4 ≤ c.posted.length then .halt (.stall true .posted) s
     else postStore sub ps ws c s)
  else if 4 ≤ c.posted.length && !onPath sub s then .halt (.stall true .posted) s
  else (commitPoint sub c s).next fun _ c1 s1 => postStore sub ps ws c1 s1

/-! ### Legality -/

/-- What an opcode's encoding and prefix rules say of the instruction in hand (R157, R163): its bytes without prefixes,
whether a field or value is reserved, the prefixes it accepts, a destination of the units, a full loop stack. -/
structure Sig where
  len : Nat
  bad : Bool := false
  wide : Bool := false
  dbl : Bool := false
  rep : Bool := false
  bank : Bool := false
  noflag : Bool := false
  atom : Bool := false
  unitDest : Bool := false
  full : Bool := false
deriving DecidableEq, Repr

/-- The instruction carries a repeat prefix. -/
def hasRep (i : Iss) : Bool := match i.rep with | .none => false | _ => true

/-- Number of prefixes. -/
def prefixes (i : Iss) : Nat :=
  b2n (hasRep i) + b2n i.wide + b2n i.dbl + b2n i.bank.isSome + b2n i.noflag + b2n i.atom

/-- Bytes of the prefixes: REP and REPD take two (R140). -/
def prefixBytes (i : Iss) : Nat := prefixes i + b2n (hasRep i)

/-- The illegal-instruction fault of an instruction, in the order of R163. -/
def illegal (i : Iss) (g : Sig) : Option Nat :=
  if 4 < prefixes i then some 0x02
  else if 14 < prefixBytes i + g.len then some 0x03
  else if g.bad then some 0x04
  else if (i.wide && !g.wide) || (i.dbl && !g.dbl) || (i.bank.isSome && !g.bank) || (i.noflag && !g.noflag) ||
      (i.atom && !g.atom) then some 0x02
  else if hasRep i && !g.rep then some 0x05
  else if g.unitDest then some 0x07
  else if g.full then some 0x06
  else none

/-! ### The end of an instruction -/

/-- The count of a repetition that starts now (R161). -/
def repStart (i : Iss) (c : Ctx) : Option Nat :=
  match i.rep with
  | .none => none
  | .rep n => some n.toNat
  | .repd k => some (getD k.toNat c).toNat

/-- Write back a context at the end of an instruction; a load's data is then awaited (R122). -/
def writeBack (sub : Nat) (before c : Ctx) (s : State) : State :=
  let s1 := modCtx sub (fun _ => { c with got := [] }) s
  match s.loads.find? fun kv => kv.1 == sub with
  | none => s1
  | some (_, e) =>
    stallRun sub e.long
      (modCtx sub (fun x => { x with stall := .load })
        { s1 with loads := mput sub { e with before := before } s1.loads })

/-- An instruction, or a repetition of it, completes: the PC moves on, loops back, or goes where a transfer says. -/
def complete (i : Iss) (g : Sig) (target : Option Nat) (before c : Ctx) (s : State) : State :=
  let sub := i.sub.toNat
  let left := match c.rep with | none => 0 | some n => n - 1
  if 0 < left then stepDone sub (writeBack sub before { c with rep := some left } s)
  else
    let next := before.pc + BitVec.ofNat 24 (prefixBytes i + g.len)
    let go := match target with | some t => (BitVec.ofNat 24 t, c.loops) | none => loopBack next c.loops
    stepDone sub (countInstr sub (writeBack sub before { c with rep := none, pc := go.1, loops := go.2 } s))

/-- The path pauses with a cause (R97, R98): it waits for the delivered status, as in WAIT (R93, R110). -/
def pausePath (sub cause : Nat) (s : State) : State :=
  setRun sub .wait (modStk (stkOf sub) (fun x => { x with
    spec := x.spec.map fun p => { p with pause := cause } }) s)

/-- An instruction ends without effect. -/
def haltInstr (sub : Nat) (rep : Option Nat) (h : Halt) (s : State) : State :=
  let s0 := { s with loads := merase sub s.loads }
  match h with
  | .fault code addr => stokerFault sub code addr (modCtx sub (fun x => { x with rep := rep, got := [] }) s0)
  | .stall long w => stallRun sub long (modCtx sub (fun x => { x with rep := rep, stall := w }) s0)
  | .pause cause => pausePath sub cause s0
  | .sleep next now tk ev =>
    addDue (.resched (stkOf sub)) (modCtx sub (fun x => { x with
      run := if now then .ready else .wait, waitTk := tk && !now, waitEv := ev && !now, waitNext := some next
      waitc := if now then 1 else x.waitc }) s0)

/-- The context may issue an instruction: it runs a procedure entry or its speculative path, and no stall holds it. -/
def mayIssue (sub : Nat) (s : State) : Bool :=
  (ctx sub s).run == .running && (ctx sub s).stall == .none && stkRuns (stkOf sub) s &&
    ((sch sub s).phase == .proc ||
     (match specOf sub s with | some p => p.pause == 0 | none => false))

/-- Issue one instruction, or the next repetition of it, for its context (R109, R161 to R163). -/
def issue (i : Iss) (g : Sig) (body : Ctx → State → Out (Option Nat)) (s : State) : State :=
  let sub := i.sub.toNat
  let c := ctx sub s
  if !mayIssue sub s then s
  else match illegal i g with
    | some code => stokerFault sub code 0 s
    | none =>
      let rep := if c.rep.isSome then c.rep else repStart i c
      let c0 := { c with rep := rep, repEnd := if rep.isSome then 0 else c.repEnd }
      if !c.drain.isEmpty then haltInstr sub c.rep (.stall false .posted) s
      else if rep = some 0 then complete i g none c { c0 with rep := none } s
      else match body c0 s with
        | .ok t c1 s1 => complete i g t c0 c1 s1
        | .halt h s1 => haltInstr sub rep h s1

end Sys2Proof.Machine
end

