-- ==== Sys2Proof/Machine/Decoder.lean ====
section
/-! DEFINITION. The stoker's instruction decoder as far as it settles illegal instructions (R139 to R157, R163): the bytes an
instruction needs, its reserved fields and values, and the prefixes its opcode accepts. -/
namespace Sys2Proof.Machine
open Sys2Proof

/-- An EA as its bytes give it: mode byte and extension. -/
structure RawEA where
  mode : Byte
  ext : List Byte
deriving DecidableEq, Repr

/-- What the bytes read so far say: more bytes are needed, of at least so many in all; a fault is settled, or the instruction is complete: its prefixes,
whether a reserved bit of REPD is set, its opcode, operand bytes and EAs. -/
inductive Dec where
  | need (total : Nat)
  | fault (code : Nat)
  | done (i : Iss) (bad : Bool) (opc : Nat) (f : List Byte) (es : List RawEA)
deriving DecidableEq, Repr

/-- After the prefixes: what is settled, or the prefixes, whether a reserved bit of REPD is set, the opcode and the rest. -/
inductive DecPre where
  | stop (d : Dec)
  | op (i : Iss) (bad : Bool) (opc : Nat) (rest : List Byte)
deriving DecidableEq, Repr

/-- Read the prefixes (R140, R141): a reserved byte, a second one of a kind or a fifth one is fault 0x02. -/
def decPrefix (i : Iss) (bad : Bool) : List Byte → DecPre
  | [] => .stop (.need 0)
  | b :: r =>
    let n := b.toNat
    if n / 16 ≠ 14 then .op i bad n r
    else if 0xEA ≤ n || prefixes i = 4 then .stop (.fault 2)
    else if n = 0xE0 || n = 0xE1 then
      (if hasRep i then .stop (.fault 2)
       else match r with
        | [] => .stop (.need 0)
        | x :: r' =>
          if n = 0xE0 then decPrefix { i with rep := .rep x } bad r'
          else decPrefix { i with rep := .repd (x.setWidth 4) } (bad || decide (16 ≤ x.toNat)) r')
    else if n = 0xE2 then (if i.wide then .stop (.fault 2) else decPrefix { i with wide := true } bad r)
    else if n = 0xE3 then (if i.dbl then .stop (.fault 2) else decPrefix { i with dbl := true } bad r)
    else if n = 0xE8 then (if i.noflag then .stop (.fault 2) else decPrefix { i with noflag := true } bad r)
    else if n = 0xE9 then (if i.atom then .stop (.fault 2) else decPrefix { i with atom := true } bad r)
    else if i.bank.isSome then .stop (.fault 2)
    else decPrefix { i with bank := some (b.setWidth 2) } bad r

/-- The opcode map's last defined column of each row, with the cells inside it that are undefined (R146). -/
def opDefined (o : Nat) : Bool :=
  let c := o % 16
  match o / 16 with
  | 0x0 => decide (c ≤ 0xD)
  | 0x1 | 0x2 => decide (c ≤ 0xE)
  | 0x3 | 0x8 => true
  | 0x4 => c != 0xA && c != 0xB
  | 0x5 => decide (c ≤ 0xE)
  | 0x6 => decide (c ≤ 7) && c != 6
  | 0x7 | 0xC => decide (c ≤ 5)
  | 0x9 => decide (c ≤ 6)
  | 0xA => decide (c ≤ 7)
  | 0xB => decide (c ≤ 1)
  | 0xD => decide (c ≤ 4)
  | _ => false

/-- Operand bytes of an opcode before its EAs, and how many EAs it has (R147 to R156). -/
def opForm (o : Nat) (wide : Bool) : Nat × Nat :=
  let c := o % 16
  match o / 16 with
  | 0x0 => (if c = 3 || c = 9 || c = 0xB then 1 else if c = 8 || c = 0xA || c = 0xD then 3 else if c = 0xC then 4 else 0, 0)
  | 0x2 => (2, 0)
  | 0x4 => (if wide then 5 else 3, 0)
  | 0x5 => (1, if c = 0xB || c = 0xC then 0 else 1)
  | 0x6 => if c = 7 then (0, 2) else (if c = 0 then 2 else if c = 1 || c = 2 then 3 else 1, 0)
  | 0x7 => (if 4 ≤ c then 2 else 1, 0)
  | 0x8 => (if c = 0xF then 9 else 1, 0)
  | 0x9 => (if 3 ≤ c && c ≤ 5 then 2 else 1, 0)
  | 0xA => (if c ≤ 5 then 2 else 1, 0)
  | 0xC => (if 4 ≤ c then 2 else 1, 0)
  | 0xD => (1, 1)
  | _ => (1, 0)

/-- Extension bytes of an EA mode (R144). -/
def modeExt (m : Nat) : Nat :=
  if m = 3 || m = 5 then 1 else if m = 4 || m = 7 then 2 else if m = 6 then 4 else 0

/-- MODE of an EA. -/
def RawEA.m (e : RawEA) : Nat := e.mode.toNat / 16

/-- A reserved field of an EA is not 0 (R144). -/
def RawEA.bad (e : RawEA) : Bool :=
  bit e.mode 3 || ((e.m == 6 || e.m == 7) && fld e.mode 2 0 != 0) || (e.m == 5 && fld (e.ext.headD 0) 3 0 != 0)

/-- The EA selects a bank register (R145). -/
def RawEA.banked (e : RawEA) : Bool := decide (e.m ≤ 5)

/-- Read n EAs: what is settled, or the EAs. A reserved mode is fault 0x04. -/
def decEAs : Nat → List Byte → List RawEA → Dec ⊕ List RawEA
  | 0, _, es => .inr es
  | _ + 1, [], _ => .inl (.need 0)
  | n + 1, b :: r, es =>
    if 8 ≤ b.toNat / 16 then .inl (.fault 4)
    else
      let k := modeExt (b.toNat / 16)
      if r.length < k then .inl (.need 0) else decEAs n (r.drop k) (es ++ [{ mode := b, ext := r.take k }])

/-- The least number of bytes that n EAs take whose bytes so far are these. -/
def eaLeast : Nat → List Byte → Nat
  | 0, _ => 0
  | n + 1, [] => n + 1
  | n + 1, b :: r => 1 + modeExt (b.toNat / 16) + eaLeast n (r.drop (modeExt (b.toNat / 16)))

/-- The extended register code in the low bits of a byte: a reserved bit or code, or under WIDE no even D register. -/
def xrByteBad (wide : Bool) (b : Byte) : Bool :=
  let x := fld b 5 0
  fld b 7 6 != 0 || xrBad x || (wide && (!xrData x || x % 2 == 1))

/-- A reserved bit or value in the operand bytes f and EAs es of opcode o, or an odd register where an even one is required
(R143, R147 to R156, R163 check 5). -/
def opBad (o : Nat) (w : Bool) (f : List Byte) (es : List RawEA) : Bool :=
  let c := o % 16
  let b0 := f.headD 0
  let b1 := f.getD 1 0
  let hi := fld b0 7 4
  let lo := fld b0 3 0
  let odd (n : Nat) : Bool := n % 2 == 1
  let wodd (n : Nat) : Bool := w && odd n
  let last2 (k : Nat) : Nat := (f.getD k 0).toNat * 256 + (f.getD (k + 1) 0).toNat
  es.any RawEA.bad ||
  (match o / 16 with
   | 0x0 =>
     if c = 3 then fld b0 7 2 != 0 || fld b0 1 0 == 0
     else if c = 9 || c = 0xB then lo != 0 || odd hi
     else if c = 0xC then last2 2 == 0
     else if c = 0xD then hi != 0 || last2 1 == 0
     else false
   | 0x3 => wodd hi || wodd lo
   | 0x4 => lo != 0 || wodd hi ||
     (decide (0xC ≤ c) && !(((f.drop 1).dropLast.all fun b => b == 0) && fld (f.getLastD 0) 7 5 == 0))
   | 0x5 =>
     if c = 0 || c = 9 || c = 0xB || c = 0xC then xrByteBad w b0
     else if c = 0xA then fld b0 7 3 != 0 || es.any fun e => !(e.m == 0 || e.m == 3 || e.m == 4 || e.m == 5)
     else if c = 0xD || c = 0xE then fld b0 5 0 != 0
     else lo != 0 || wodd hi
   | 0x6 =>
     if c = 0 then xrByteBad w b0 || fld b1 7 6 != 0 || xrBad (fld b1 5 0) ||
       (w && !((xrData (fld b1 5 0) && fld b1 0 0 == 0) || fld b1 5 0 == 0x20 || fld b1 5 0 == 0x22 || fld b1 5 0 == 0x24 ||
         fld b1 5 0 == 0x26))
     else if c = 1 then xrByteBad false b0
     else if c = 2 then fld b0 7 3 != 0
     else if c = 3 then bit b0 7
     else if c = 7 then false
     else lo != 0
   | 0x7 =>
     if c ≤ 1 then wodd hi || wodd lo
     else if c ≤ 3 then odd hi || wodd lo
     else fld b0 7 5 != 0 || fld b0 4 0 == 0 || bit b1 7 || bit b1 3
   | 0x8 =>
     if c = 3 || c = 4 then false
     else if c = 6 || c = 0xA || c = 0xB || c = 0xD then lo != 0
     else if c = 9 then fld b0 7 6 != 0 || fld b0 1 0 != 0
     else if c = 0xC then decide (8 ≤ lo)
     else if c = 0xE then fld b0 4 2 != 0
     else if c = 0xF then fld b0 5 0 != 0
     else fld b0 1 0 != 0
   | 0x9 =>
     if c ≤ 1 then fld b0 1 0 != 0
     else if c = 2 then fld b0 7 6 != 0 || fld b0 1 0 != 0
     else if c ≤ 5 then lo != 0 || fld b1 7 6 != 0
     else fld b0 5 0 != 0
   | 0xA =>
     if c = 0 then fld b1 7 2 != 0
     else if c = 1 then fld b1 7 4 != 0
     else if c = 2 then bit b0 7 || fld b1 7 2 != 0
     else if c = 3 then bit b0 7 || fld b1 7 4 != 0
     else if c = 4 then lo != 0 || fld b1 3 0 != 0 || fld b1 5 4 == 3
     else if c = 5 then lo != 0 || fld b1 7 6 != 0 || fld b1 3 0 != 0 || fld b1 5 4 == 3
     else if c = 7 then fld b0 5 4 != 0
     else false
   | 0xB => bit b0 7 || wodd lo
   | 0xC => decide (4 ≤ c) && decide (16 < fld b1 7 4 + fld b1 3 0 + 1)
   | 0xD => if c = 4 then wodd hi || wodd lo else lo != 0 || wodd hi
   | _ => false)

/-- The prefixes opcode o accepts with these operands (R157). -/
def opWide (o : Nat) : Bool :=
  (decide (0x30 ≤ o) && decide (o ≤ 0x59)) || o == 0x5B || o == 0x5C || o == 0x60 || o == 0x67 ||
  (decide (0x70 ≤ o) && decide (o ≤ 0x73)) || o == 0xB0 || o == 0xB1 || (decide (0xD0 ≤ o) && decide (o ≤ 0xD4))
/-- DBL (R157 note 2). -/
def opDbl (o : Nat) (b0 : Byte) : Bool :=
  decide (0x80 ≤ o) && decide (o ≤ 0x8D) && (o != 0x8C || decide (2 ≤ fld b0 3 0))
/-- The destination is an extended register. -/
def opXrDest (o : Nat) : Bool := o == 0x50 || o == 0x5C || o == 0x60 || o == 0x61
/-- REP and REPD (R157 note 1). -/
def opRep (o : Nat) (b0 : Byte) : Bool :=
  ((decide (0x30 ≤ o) && decide (o ≤ 0xA3)) || o == 0xB0 || o == 0xB1 || (decide (0xC0 ≤ o) && decide (o ≤ 0xC5))) &&
  !(opXrDest o && xrSpecial (fld b0 5 0))
/-- BANKk. -/
def opBank (o : Nat) (es : List RawEA) : Bool :=
  (o != 0x5A && es.any RawEA.banked) || o == 0x5B || o == 0x5C || o == 0x74 || o == 0x75 || o == 0xA2 || o == 0xA3 ||
  o == 0xB0 || o == 0xB1
/-- NOFLAG. -/
def opNoflag (o : Nat) (b0 : Byte) : Bool :=
  (decide (0x30 ≤ o) && decide (o ≤ 0x4F) && o % 16 != 5 && o % 16 != 9) || (o == 0x50 && xrData (fld b0 5 0)) ||
  (decide (0x51 ≤ o) && decide (o ≤ 0x58) && o != 0x55) || o == 0x64 || o == 0x65 || o == 0x74 || o == 0x75 ||
  o == 0x90 || o == 0x91 || (decide (0x93 ≤ o) && decide (o ≤ 0x95)) || o == 0xA0 || o == 0xA2 ||
  (decide (0xC0 ≤ o) && decide (o ≤ 0xC5) && o != 0xC2) || (decide (0xD1 ≤ o) && decide (o ≤ 0xD3))

/-- The complete instruction: its length without prefixes and what R157 and R163 ask of it. `full` is a full loop stack. -/
def opSig (o : Nat) (i : Iss) (bad full : Bool) (f : List Byte) (es : List RawEA) : Sig :=
  let b0 := f.headD 0
  { len := 1 + f.length + (es.map fun e => 1 + e.ext.length).foldl (· + ·) 0
    bad := bad || opBad o i.wide f es
    wide := opWide o, dbl := opDbl o b0, rep := opRep o b0, bank := opBank o es
    noflag := opNoflag o b0, atom := decide (0xD0 ≤ o), unitDest := opXrDest o && xrUnit (fld b0 5 0)
    full := full && (o == 0x0C || o == 0x0D) }

/-- Decode the bytes read so far. -/
def decodeBytes (sub : Sub) (bs : List Byte) : Dec :=
  match decPrefix { sub := sub } false bs with
  | .stop d => d
  | .op i bad o r =>
    if !opDefined o then .fault 1
    else
      let m := opForm o i.wide
      let total := prefixBytes i + 1 + m.1 + eaLeast m.2 (r.drop m.1)
      if r.length < m.1 then .need total
      else match decEAs m.2 (r.drop m.1) [] with
        | .inl (.need _) => .need total
        | .inl d => d
        | .inr es => .done i bad o (r.take m.1) es

/-! ### Fetching the bytes (R119 to R121, R142, R163) -/

/-- Byte b of code space for stoker k: the byte, or the fault of its fetch with the fault address. -/
def codeByte (k b : Nat) (s : State) : (Byte ⊕ (Nat × Nat)) × State :=
  let half (w : Word) : Byte := if b % 2 = 0 then (w >>> 8).setWidth 8 else w.setWidth 8
  match icFind k b s with
  | some l => (.inl (half (nth l.words (b % 64 / 2))), s)
  | none =>
    match codeFault k b s with
    | some c => (.inr (c, 0), s)
    | none =>
      let a := (codeWord k b s).getD 0
      match place (some (fbxOf k)) none a s with
      | .mem key =>
        let r := memRead key s
        (if r.2.1 then .inr (0x0D, a) else .inl (half r.1), r.2.2)
      | _ => (.inr (0x09, 0), s)

/-- Read the instruction at the PC byte by byte until it is complete or a fault is settled: the fault and its address. The need
of a 15th byte is fault 0x03, and no byte past the 14th is fetched (R142, R163). -/
def decodeAt (sub : Nat) : Nat → List Byte → State → Option (Nat × Nat) × State
  | 0, _, s => (some (3, 0), s)
  | n + 1, bs, s =>
    match decodeBytes (BitVec.ofNat 13 sub) bs with
    | .fault c => (some (c, 0), s)
    | .done i bad o f es =>
      ((illegal i (opSig o i bad (decide ((ctx sub s).loops.length = 4)) f es)).map fun c => (c, 0), s)
    | .need total =>
      if 14 < total || 14 ≤ bs.length then (some (3, 0), s) else
      let r := codeByte (stkOf sub) ((pcOf sub s + bs.length) % 2 ^ 24) s
      match r.1 with
      | .inl b => decodeAt sub n (bs ++ [b]) r.2
      | .inr f => (some f, r.2)

/-- The decoder meets an illegal instruction or a code byte that cannot be fetched (R120, R163): the fault is raised; a legal
instruction at the PC raises none. -/
def illegalNow (sub : Nat) (s : State) : State :=
  if !mayIssue sub s then s
  else
    let r := decodeAt sub 15 [] s
    match r.1 with
    | none => s
    | some (c, a) => stokerFault sub c a r.2

/-- ILLEGAL_INSTRUCTION. -/
def execIllegalInstruction (sub : Sub) (s : State) : Host.Outcome State Fault Refusal := act s (illegalNow sub.toNat)

end Sys2Proof.Machine
end

