-- ==== Sys2Proof/Machine/StkControl.lean ====
section
/-! DEFINITION. Control opcodes (R147, R148, R159): transfers, loops, FENCE, WAIT, and the returns RETC and RETD (R69,
R92, R125, R129). -/
namespace Sys2Proof.Machine
open Sys2Proof

/-- The trace of a happening, none on a speculative path (R138). -/
def traceC (sub kind pc data : Nat) (s : State) : State := if onPath sub s then s else trace sub kind pc data s

/-- The address after the instruction (R147). -/
def nextPc (i : Iss) (len : Nat) (c : Ctx) : Nat := (c.pc.toNat + prefixBytes i + len) % 2 ^ 24

/-- The target of a relative displacement of n bits. -/
def relTarget (i : Iss) (len n d : Nat) (c : Ctx) : Nat := tc 24 ((nextPc i len c : Int) + sx n d)

/-- The target a pair of data registers names: Dn[7:0] : Dn+1 (R147). -/
def pairTarget (dn : Nat) (c : Ctx) : Nat := (getD dn c).toNat % 256 * 65536 + (getD (dn + 1) c).toNat

/-- Push words through A7 (R116). -/
def pushWords (i : Iss) (ws : List Word) (c : Ctx) (s : State) : Out Unit :=
  let c1 := setA 7 (getA 7 c - wd ws.length) c
  stWords i.sub.toNat (bankAddrs i 7 (getA 7 c1).toNat ws.length c1) ws c1 s

/-- Pop n words through A7 (R116). -/
def popWords (i : Iss) (n : Nat) (c : Ctx) (s : State) : Out (List Word) :=
  (ldWords i.sub.toNat (bankAddrs i 7 (getA 7 c).toNat n c) c s).next fun ws c1 s1 =>
    .ok ws (setA 7 (getA 7 c1 + wd n) c1) s1

/-- A call: the return address is pushed, then the target taken (R116, R147). -/
def callTo (i : Iss) (len target : Nat) (c : Ctx) (s : State) : Out (Option Nat) :=
  (pushWords i (wordsOf 2 (nextPc i len c)) c s).next fun _ c1 s1 => .ok (some target) c1 s1

/-- The context waits until its posted stores are acknowledged (R125). -/
def fenced (c : Ctx) (s : State) (k : Out (Option Nat)) : Out (Option Nat) :=
  if c.posted.isEmpty then k else .halt (.stall false .fence) s

/-- NOP. -/
def execNop (i : Iss) (s : State) : Host.Outcome State Fault Refusal :=
  act s (issue i { len := 1 } fun c t => .ok none c t)

/-- TRAP: fault 0x10. -/
def execTrap (i : Iss) (s : State) : Host.Outcome State Fault Refusal :=
  act s (issue i { len := 1 } fun _ t => .halt (.fault 0x10 0) t)

/-- FENCE (R125). -/
def execFence (i : Iss) (s : State) : Host.Outcome State Fault Refusal :=
  act s (issue i { len := 1 } fun c t => fenced c t (.ok none c t))

/-- WAIT (R129): a fence, then the context sleeps; it completes when the context is chosen again. No wake bit is a reserved
value. -/
def waitBody (i : Iss) (tk ev : Bool) (c : Ctx) (s : State) : Out (Option Nat) :=
  if onPath i.sub.toNat s then .halt (.pause 5) s
  else fenced c s
    (.halt (.sleep (c.pc + BitVec.ofNat 24 (prefixBytes i + 2)) (ev && mget 0 (stkOf i.sub.toNat) s.presented != 0) tk ev) s)

/-- WAIT. -/
def execWait (i : Iss) (tk ev : Bool) (s : State) : Host.Outcome State Fault Refusal :=
  act s (issue i { len := 2, bad := !tk && !ev } (waitBody i tk ev))

/-- What a return by RETC asks of the channel (R69): D0[15:8] must be 0. -/
def retStep (c : Ctx) : ChStep :=
  let d : Byte := BitVec.ofNat 8 (getD 0 c).toNat
  if fld (getD 0 c) 15 8 = 0 then .ret d false true else .invalid d

/-- RETC (R69): a fence, the loop stack empties, and the return reaches the channel. -/
def retcBody (i : Iss) (c : Ctx) (s : State) : Out (Option Nat) :=
  let sub := i.sub.toNat
  if onPath sub s then .halt (.pause 6) s
  else fenced c s
    (.ok none { c with loops := [] }
      (addDue (.turn sub) (modSch sub (fun x => { x with
        phase := .step (retStep c), lastResid := getD 1 c, lastAux := getD 2 c })
        (traceC sub 2 c.pc.toNat (valOf [getD 0 c, getD 1 c]) s))))

/-- RETC. -/
def execRetc (i : Iss) (s : State) : Host.Outcome State Fault Refusal := act s (issue i { len := 1 } (retcBody i))

/-- RETD (R92, R93): a fence, every unit finishes, and the return awaits its DSTAT, or takes the held one. -/
def retdBody (i : Iss) (c : Ctx) (s : State) : Out (Option Nat) :=
  let sub := i.sub.toNat
  if onPath sub s then .halt (.pause 6) s
  else fenced c s
    (if !(c.prods.isEmpty && c.div.isNone && c.fops.isEmpty) then .halt (.stall false .units) s
     else
       let s1 := modSch sub (fun x => { x with lastResid := getD 1 c, lastAux := getD 2 c })
         (traceC sub 3 c.pc.toNat (valOf [getD 0 c, getD 1 c]) s)
       let c1 := { c with loops := [] }
       if getD 0 c ≠ 0 then
         .ok none c1 (addDue (.turn sub) (modSch sub (fun x => { x with phase := .step (.invalid (BitVec.ofNat 8 (getD 0 c).toNat)) }) s1))
       else match (sch sub s1).delivered with
         | some d =>
           .ok none c1 (addDue (.turn sub) (modSch sub (fun x => { x with
             phase := .step (.ret d.1 d.2 true), delivered := none }) s1))
         | none =>
           .ok none { c1 with run := .inactive }
             (addDue (.resched (stkOf sub)) (modSch sub (fun x => { x with phase := .deferred, noSpec := false }) s1)))

/-- RETD. -/
def execRetd (i : Iss) (s : State) : Host.Outcome State Fault Refusal := act s (issue i { len := 1 } (retdBody i))

/-- RET: pops two words into the PC. -/
def retBody (i : Iss) (c : Ctx) (s : State) : Out (Option Nat) :=
  (popWords i 2 c s).next fun ws c1 s1 => .ok (some (fld (nth ws 0) 7 0 * 65536 + (nth ws 1).toNat)) c1 s1

/-- RET. -/
def execRet (i : Iss) (s : State) : Host.Outcome State Fault Refusal := act s (issue i { len := 1 } (retBody i))

/-- ENDL: the top loop entry is popped; nothing at DEPTH 0. -/
def execEndl (i : Iss) (s : State) : Host.Outcome State Fault Refusal :=
  act s (issue i { len := 1 } fun c t => .ok none { c with loops := c.loops.drop 1 } t)

/-- CALL rel24. -/
def execCall (i : Iss) (rel : BitVec 24) (s : State) : Host.Outcome State Fault Refusal :=
  act s (issue i { len := 4 } fun c t => callTo i 4 (relTarget i 4 24 rel.toNat c) c t)

/-- CALL Dn. -/
def execCallReg (i : Iss) (dn : Dreg) (s : State) : Host.Outcome State Fault Refusal :=
  act s (issue i { len := 2, bad := dn.toNat % 2 == 1 } fun c t => callTo i 2 (pairTarget dn.toNat c) c t)

/-- JMP rel24. -/
def execJmp (i : Iss) (rel : BitVec 24) (s : State) : Host.Outcome State Fault Refusal :=
  act s (issue i { len := 4 } fun c t => .ok (some (relTarget i 4 24 rel.toNat c)) c t)

/-- JMP Dn. -/
def execJmpReg (i : Iss) (dn : Dreg) (s : State) : Host.Outcome State Fault Refusal :=
  act s (issue i { len := 2, bad := dn.toNat % 2 == 1 } fun c t => .ok (some (pairTarget dn.toNat c)) c t)

/-- Start of a hardware loop (R159): a count of 0 skips the body. -/
def loopBody (i : Iss) (bytes cnt len : Nat) (c : Ctx) (s : State) : Out (Option Nat) :=
  let ls := nextPc i bytes c
  let le := (ls + len) % 2 ^ 24
  if cnt = 0 then .ok (some le) c s
  else .ok none { c with loops := ⟨BitVec.ofNat 24 ls, BitVec.ofNat 24 le, wd cnt⟩ :: c.loops } s

/-- The loop stack of a context is full. -/
def loopFull (i : Iss) (s : State) : Bool := decide (4 ≤ (ctx i.sub.toNat s).loops.length)

/-- LOOP. -/
def execLoop (i : Iss) (cnt len : Word) (s : State) : Host.Outcome State Fault Refusal :=
  act s (issue i { len := 5, bad := len == 0, full := loopFull i s } (loopBody i 5 cnt.toNat len.toNat))

/-- LOOPD. -/
def execLoopd (i : Iss) (dk : Dreg) (len : Word) (s : State) : Host.Outcome State Fault Refusal :=
  act s (issue i { len := 4, bad := len == 0, full := loopFull i s } fun c t =>
    loopBody i 4 (getD dk.toNat c).toNat len.toNat c t)

/-- A condition that tests V (R164). -/
def testsV (cc : Nat) : Bool := cc == 6 || cc == 7 || (decide (10 ≤ cc) && decide (cc ≤ 13))

/-- A conditional branch (R148): it waits for a divide when it tests V (R164). -/
def bccBody (i : Iss) (cc len target : Nat) (c : Ctx) (s : State) : Out (Option Nat) :=
  if testsV cc && c.div.isSome then .halt (.stall false .div) s
  else if condHolds cc (getF c) then .ok (some target) c (traceC i.sub.toNat 4 c.pc.toNat target s)
  else .ok none c s

/-- Bcc. Condition 0xF is an undefined opcode (R146): fault 0x01. -/
def execBcc (i : Iss) (cc : BitVec 4) (disp : BrDisp) (s : State) : Host.Outcome State Fault Refusal :=
  act s (
    if cc = 15 then (fun t => if mayIssue i.sub.toNat t then stokerFault i.sub.toNat 0x01 0 t else t)
    else match disp with
      | .d8 d => issue i { len := 2 } fun c t => bccBody i cc.toNat 2 (relTarget i 2 8 d.toNat c) c t
      | .d16 d => issue i { len := 3 } fun c t => bccBody i cc.toNat 3 (relTarget i 3 16 d.toNat c) c t)

end Sys2Proof.Machine
end

