-- ==== Sys2Proof/Machine/StkAlu.lean ====
section
/-! DEFINITION. Integer opcodes of rows 3 to 5 (R149, R165), EXT and SWPB, the multiplier and the divider (R152, R167 to
R171), and the bit opcodes of row C (R156). -/
namespace Sys2Proof.Machine
open Sys2Proof

/-- Flags of a result, unless NOFLAG; a written V is then no longer a divide's to write (R158, R171). -/
def putAlu (i : Iss) (r : Alu) (c : Ctx) : Ctx :=
  if i.noflag then c
  else setF (putFlags (getF c) r)
    { c with div := if r.v.isSome then c.div.map fun d => { d with writeV := false } else c.div }

/-- The value of a source: Dm, the immediate, or memory. -/
def srcValue (i : Iss) (src : AluSrc) (c : Ctx) (s : State) : Out Nat :=
  match src with
  | .reg m => .ok (getDw i.wide m.toNat c) c s
  | .imm v => .ok (v.toNat % 2 ^ widthBits i) c s
  | .mem e =>
    let a := eaEval i e (width i) c
    (ldWords i.sub.toNat a.1 a.2 s).next fun ws c1 s1 => .ok (valOf ws) c1 s1

/-- An operation Dn := Dn op s with its flags; `wr` false for the comparing ones. `f` takes the width, Dn, s and the
carry. -/
def aluBody (i : Iss) (dn : Dreg) (src : AluSrc) (wr : Bool) (f : Nat → Nat → Nat → Nat → Alu) (c : Ctx) (s : State) :
    Out (Option Nat) :=
  (srcValue i src c s).next fun v c1 s1 =>
    let r := f (widthBits i) (getDw i.wide dn.toNat c1) v (b2n (bit (getF c1) 1))
    .ok none (putAlu i r (if wr then setDw i.wide dn.toNat r.res c1 else c1)) s1

/-- A memory source, which MOV, TST, NEG, NOT and the shifts do not have (R146). -/
def isMemSrc : AluSrc → Bool | .mem _ => true | _ => false

/-- The encoding of rows 3 to 5 (R149, R157): `flags` whether NOFLAG is accepted, `mem` whether row 5 has the opcode,
`shift` whether an immediate is a count. -/
def aluSig (i : Iss) (dn : Dreg) (src : AluSrc) (flags mem shift : Bool) : Sig :=
  { len := 1 + aluLen i src, wide := true, rep := true, noflag := flags, bank := aluBanked src
    bad := oddW i dn || (match src with
      | .reg m => oddW i m
      | .imm v => shift && decide (32 ≤ v.toNat)
      | .mem _ => !mem) }

/-- MOV. -/
def execMov (i : Iss) (dn : Dreg) (src : AluSrc) (s : State) : Host.Outcome State Fault Refusal :=
  act s (issue i (aluSig i dn src true false false) (aluBody i dn src true fun w _ b _ => aluLogic w b))
/-- ADD. -/
def execAdd (i : Iss) (dn : Dreg) (src : AluSrc) (s : State) : Host.Outcome State Fault Refusal :=
  act s (issue i (aluSig i dn src true true false) (aluBody i dn src true fun w a b _ => aluAdd w a b 0))
/-- ADC. -/
def execAdc (i : Iss) (dn : Dreg) (src : AluSrc) (s : State) : Host.Outcome State Fault Refusal :=
  act s (issue i (aluSig i dn src true true false) (aluBody i dn src true aluAdd))
/-- SUB. -/
def execSub (i : Iss) (dn : Dreg) (src : AluSrc) (s : State) : Host.Outcome State Fault Refusal :=
  act s (issue i (aluSig i dn src true true false) (aluBody i dn src true fun w a b _ => aluSub w a b 0))
/-- SBC. -/
def execSbc (i : Iss) (dn : Dreg) (src : AluSrc) (s : State) : Host.Outcome State Fault Refusal :=
  act s (issue i (aluSig i dn src true true false) (aluBody i dn src true aluSub))
/-- CMP. -/
def execCmp (i : Iss) (dn : Dreg) (src : AluSrc) (s : State) : Host.Outcome State Fault Refusal :=
  act s (issue i (aluSig i dn src false true false) (aluBody i dn src false fun w a b _ => aluSub w a b 0))
/-- AND. -/
def execAnd (i : Iss) (dn : Dreg) (src : AluSrc) (s : State) : Host.Outcome State Fault Refusal :=
  act s (issue i (aluSig i dn src true true false) (aluBody i dn src true fun w a b _ => aluLogic w (a &&& b)))
/-- OR. -/
def execOr (i : Iss) (dn : Dreg) (src : AluSrc) (s : State) : Host.Outcome State Fault Refusal :=
  act s (issue i (aluSig i dn src true true false) (aluBody i dn src true fun w a b _ => aluLogic w (a ||| b)))
/-- XOR. -/
def execXor (i : Iss) (dn : Dreg) (src : AluSrc) (s : State) : Host.Outcome State Fault Refusal :=
  act s (issue i (aluSig i dn src true true false) (aluBody i dn src true fun w a b _ => aluLogic w (a ^^^ b)))
/-- TST. -/
def execTst (i : Iss) (dn : Dreg) (src : AluSrc) (s : State) : Host.Outcome State Fault Refusal :=
  act s (issue i (aluSig i dn src false false false) (aluBody i dn src false fun w a b _ => aluLogic w (a &&& b)))
/-- NEG. -/
def execNeg (i : Iss) (dn dm : Dreg) (s : State) : Host.Outcome State Fault Refusal :=
  act s (issue i (aluSig i dn (.reg dm) true false false) (aluBody i dn (.reg dm) true fun w _ b _ => aluSub w 0 b 0))
/-- NOT. -/
def execNot (i : Iss) (dn dm : Dreg) (s : State) : Host.Outcome State Fault Refusal :=
  act s (issue i (aluSig i dn (.reg dm) true false false)
    (aluBody i dn (.reg dm) true fun w _ b _ => aluLogic w (2 ^ w - 1 - b)))
/-- SHL: the count is bits [4:0] of the source (R149). -/
def execShl (i : Iss) (dn : Dreg) (src : AluSrc) (s : State) : Host.Outcome State Fault Refusal :=
  act s (issue i (aluSig i dn src true false true) (aluBody i dn src true fun w a b _ => aluShl w a (b % 32)))
/-- SHR. -/
def execShr (i : Iss) (dn : Dreg) (src : AluSrc) (s : State) : Host.Outcome State Fault Refusal :=
  act s (issue i (aluSig i dn src true false true) (aluBody i dn src true fun w a b _ => aluShr w a (b % 32)))
/-- SAR. -/
def execSar (i : Iss) (dn : Dreg) (src : AluSrc) (s : State) : Host.Outcome State Fault Refusal :=
  act s (issue i (aluSig i dn src true false true) (aluBody i dn src true fun w a b _ => aluSar w a (b % 32)))
/-- ROL. -/
def execRol (i : Iss) (dn : Dreg) (src : AluSrc) (s : State) : Host.Outcome State Fault Refusal :=
  act s (issue i (aluSig i dn src true false true) (aluBody i dn src true fun w a b _ => aluRol w a (b % 32)))

/-- A one-register operation on 16 bits with ZN0. -/
def unaryBody (i : Iss) (dn dm : Dreg) (f : Word → Nat) (c : Ctx) (s : State) : Out (Option Nat) :=
  let r := aluLogic 16 (f (getD dm.toNat c))
  .ok none (putAlu i r (setD dn.toNat (wd r.res) c)) s

/-- EXT. -/
def execExt (i : Iss) (dn : Dreg) (s : State) : Host.Outcome State Fault Refusal :=
  act s (issue i { len := 2, rep := true, noflag := true } (unaryBody i dn dn fun w => tc 16 (sx 8 w.toNat)))
/-- SWPB. -/
def execSwpb (i : Iss) (dn : Dreg) (s : State) : Host.Outcome State Fault Refusal :=
  act s (issue i { len := 2, rep := true, noflag := true } (unaryBody i dn dn fun w => fld w 7 0 * 256 + fld w 15 8))

/-! ### Multiplier and divider -/

/-- A product is on its way (R128, R167). -/
def mulBody (i : Iss) (signed : Bool) (dn dm : Dreg) (c : Ctx) (s : State) : Out (Option Nat) :=
  let p := product signed i.wide (getDw i.wide dn.toNat c) (getDw i.wide dm.toNat c)
  .ok none { c with prods := c.prods ++ [{ wide := i.wide, p := BitVec.ofNat 64 p }] } s

/-- MULU. -/
def execMulu (i : Iss) (dn dm : Dreg) (s : State) : Host.Outcome State Fault Refusal :=
  act s (issue i { len := 2, wide := true, rep := true, bad := oddW i dn || oddW i dm } (mulBody i false dn dm))
/-- MULS. -/
def execMuls (i : Iss) (dn dm : Dreg) (s : State) : Host.Outcome State Fault Refusal :=
  act s (issue i { len := 2, wide := true, rep := true, bad := oddW i dn || oddW i dm } (mulBody i true dn dm))

/-- A division is on its way; it waits for the divider (R127, R169). -/
def divBody (i : Iss) (signed : Bool) (dn dm : Dreg) (c : Ctx) (s : State) : Out (Option Nat) :=
  if c.div.isSome then .halt (.stall false .div) s
  else
    let r := divide signed i.wide (getDw true dn.toNat c) (getDw i.wide dm.toNat c)
    .ok none { c with div := some {
      quo := BitVec.ofNat 32 r.1, rem := BitVec.ofNat 32 r.2.1, v := r.2.2.1, dz := r.2.2.2 } } s

/-- DIVU. -/
def execDivu (i : Iss) (dn dm : Dreg) (s : State) : Host.Outcome State Fault Refusal :=
  act s (issue i { len := 2, wide := true, rep := true, bad := dn.toNat % 2 == 1 || oddW i dm } (divBody i false dn dm))
/-- DIVS. -/
def execDivs (i : Iss) (dn dm : Dreg) (s : State) : Host.Outcome State Fault Refusal :=
  act s (issue i { len := 2, wide := true, rep := true, bad := dn.toNat % 2 == 1 || oddW i dm } (divBody i true dn dm))

/-- Write consecutive registers of the code map. -/
def putRs (x : Nat) : List Word → Ctx → Ctx
  | [], c => c
  | w :: ws, c => putRs (x + 1) ws { c with r := mset 0 x w c.r }

/-- The oldest product of a kind lands: all four P registers at once (R128, R168). -/
def landProduct (wide : Bool) (c : Ctx) : Ctx :=
  match c.prods.find? fun p => p.wide == wide with
  | none => c
  | some p => putRs 0x20 (wordsOf 4 p.p.toNat) { c with prods := c.prods.eraseP fun q => q.wide == wide }

/-- A 32 × 32 product issued before the oldest 16 × 16 one in flight: they may land in the same sc (R168). -/
def mayCollide (c : Ctx) : Bool :=
  !(c.prods.takeWhile fun p => p.wide).isEmpty && c.prods.any fun p => !p.wide

/-- The oldest 32 × 32 product is never seen (R168). -/
def dropWide (c : Ctx) : Ctx := { c with prods := c.prods.eraseP fun p => p.wide }

/-- A product lands. Whether a 16 × 16 product lands in the sc of a 32 × 32 one issued before it, which is then never seen
(R168), follows from sc times that the model has not: a free choice (log 99). -/
def productLands (sub : Nat) (wide : Bool) (s : State) : State :=
  if !wide && mayCollide (ctx sub s) then
    let r := freshWord s
    modCtxToo sub (landProduct false) (doIf (bit r.1 0) (modCtxToo sub dropWide) r.2)
  else modCtxToo sub (landProduct wide) s

/-- PRODUCT_LANDING. -/
def execProductLanding (sub : Sub) (wide : Bool) (s : State) : Host.Outcome State Fault Refusal :=
  act s (productLands sub.toNat wide)

/-- The division completes: QUO, REM, sticky DZ, and V unless a later instruction has written it (R170, R171). -/
def landDivide (c : Ctx) : Ctx :=
  match c.div with
  | none => c
  | some d =>
    let f := if d.dz then setBit (getF c) 7 true else getF c
    let f1 := if d.writeV then setBit f 0 d.v else f
    setF f1 (putRs 0x24 (wordsOf 2 d.quo.toNat ++ wordsOf 2 d.rem.toNat) { c with div := none })

/-- DIVIDE_COMPLETE. -/
def execDivideComplete (sub : Sub) (s : State) : Host.Outcome State Fault Refusal :=
  act s (modCtxToo sub.toNat landDivide)

/-! ### Bits and bit fields -/

/-- BSET, BCLR, BTST, BCHG: Z is the complement of the old bit (R156). -/
def bitBody (i : Iss) (dn : Dreg) (b : BitVec 4) (f : Bool → Bool) (c : Ctx) (s : State) : Out (Option Nat) :=
  let old := bit (getD dn.toNat c) b.toNat
  let c1 := setD dn.toNat (setBit (getD dn.toNat c) b.toNat (f old)) c
  .ok none (if i.noflag then c1 else setF (setBit (getF c1) 3 (!old)) c1) s

/-- BSET. -/
def execBset (i : Iss) (dn : Dreg) (b : BitVec 4) (s : State) : Host.Outcome State Fault Refusal :=
  act s (issue i { len := 2, rep := true, noflag := true } (bitBody i dn b fun _ => true))
/-- BCLR. -/
def execBclr (i : Iss) (dn : Dreg) (b : BitVec 4) (s : State) : Host.Outcome State Fault Refusal :=
  act s (issue i { len := 2, rep := true, noflag := true } (bitBody i dn b fun _ => false))
/-- BTST. -/
def execBtst (i : Iss) (dn : Dreg) (b : BitVec 4) (s : State) : Host.Outcome State Fault Refusal :=
  act s (issue i { len := 2, rep := true } (bitBody i dn b fun x => x))
/-- BCHG. -/
def execBchg (i : Iss) (dn : Dreg) (b : BitVec 4) (s : State) : Host.Outcome State Fault Refusal :=
  act s (issue i { len := 2, rep := true, noflag := true } (bitBody i dn b fun x => !x))

/-- The encoding of BFX and BFI: the field must fit (R156). -/
def bfSig (pos wid1 : BitVec 4) : Sig :=
  { len := 3, rep := true, noflag := true, bad := decide (16 < pos.toNat + wid1.toNat + 1) }

/-- BFX: Dn := Dm[pos + wid − 1 : pos]. -/
def bfxBody (i : Iss) (dn dm : Dreg) (pos wid1 : BitVec 4) (c : Ctx) (s : State) : Out (Option Nat) :=
  let r := aluLogic 16 (fld (getD dm.toNat c) (pos.toNat + wid1.toNat) pos.toNat)
  .ok none (putAlu i r (setD dn.toNat (wd r.res) c)) s

/-- BFX. -/
def execBfx (i : Iss) (dn dm : Dreg) (pos wid1 : BitVec 4) (s : State) : Host.Outcome State Fault Refusal :=
  act s (issue i (bfSig pos wid1) (bfxBody i dn dm pos wid1))

/-- BFI: Dn[pos + wid − 1 : pos] := Dm[wid − 1 : 0]. -/
def bfiBody (i : Iss) (dn dm : Dreg) (pos wid1 : BitVec 4) (c : Ctx) (s : State) : Out (Option Nat) :=
  let v := setFld (getD dn.toNat c) (pos.toNat + wid1.toNat) pos.toNat (fld (getD dm.toNat c) wid1.toNat 0)
  let r := aluLogic 16 v.toNat
  .ok none (putAlu i r (setD dn.toNat (wd r.res) c)) s

/-- BFI. -/
def execBfi (i : Iss) (dn dm : Dreg) (pos wid1 : BitVec 4) (s : State) : Host.Outcome State Fault Refusal :=
  act s (issue i (bfSig pos wid1) (bfiBody i dn dm pos wid1))

end Sys2Proof.Machine
end

