-- ==== Sys2Proof/Machine/Float.lean ====
section
/-! DEFINITION. Binary32 and binary64 arithmetic (R172 to R179): values are read as exact numbers, operations computed
exactly, and the result rounded once. -/
namespace Sys2Proof.Machine
open Sys2Proof

/-- A format: precision, and the width of the exponent field. -/
structure Fmt where
  p : Nat
  eb : Nat
deriving DecidableEq, Repr

/-- Single precision. -/
def single : Fmt := ⟨24, 8⟩
/-- Double precision. -/
def double : Fmt := ⟨53, 11⟩
/-- The exponent bias. -/
def Fmt.bias (f : Fmt) : Int := 2 ^ (f.eb - 1) - 1
/-- Bits of an encoding. -/
def Fmt.bits (f : Fmt) : Nat := f.p + f.eb
/-- Exponent of the least bit of a subnormal. -/
def Fmt.qmin (f : Fmt) : Int := 2 - f.bias - f.p
/-- The encoding of an infinity. -/
def Fmt.inf (f : Fmt) (s : Bool) : Nat := b2n s * 2 ^ (f.bits - 1) + (2 ^ f.eb - 1) * 2 ^ (f.p - 1)
/-- The positive canonical quiet NaN (R174). -/
def Fmt.qnan (f : Fmt) : Nat := f.inf false + 2 ^ (f.p - 2)
/-- The encoding of a zero. -/
def Fmt.zero (f : Fmt) (s : Bool) : Nat := b2n s * 2 ^ (f.bits - 1)
/-- The encoding of the largest finite magnitude. -/
def Fmt.maxFin (f : Fmt) (s : Bool) : Nat := f.inf s - 1

/-- What an encoding stands for: a NaN (signalling or not), an infinity, or ± m × 2^e. -/
inductive FVal where
  | nan (sig : Bool)
  | inf (s : Bool)
  | fin (s : Bool) (m : Nat) (e : Int)
deriving DecidableEq, Repr

/-- Read an encoding. -/
def Fmt.read (f : Fmt) (x : Nat) : FVal :=
  let s := decide ((x / 2 ^ (f.bits - 1)) % 2 = 1)
  let ex := (x / 2 ^ (f.p - 1)) % 2 ^ f.eb
  let fr := x % 2 ^ (f.p - 1)
  if ex = 2 ^ f.eb - 1 then
    (if fr = 0 then .inf s else .nan (decide (fr < 2 ^ (f.p - 2))))
  else if ex = 0 then .fin s fr f.qmin
  else .fin s (fr + 2 ^ (f.p - 1)) (f.qmin + ex - 1)

/-- The IEEE sticky flags as FLAGS bits [12:8] (R117): INV, DZE, OVF, UNF, INX. -/
def fInv : Nat := 0x1000
/-- DZE. -/
def fDze : Nat := 0x0800
/-- OVF and INX together. -/
def fOvf : Nat := 0x0500
/-- UNF. -/
def fUnf : Nat := 0x0200
/-- INX. -/
def fInx : Nat := 0x0100

/-- Round m × 2^k' by dropping k low bits (k may be negative): the kept number and whether bits were lost. Modes: 0 RNE,
1 RTZ, 2 RUP, 3 RDN, 4 RMM. -/
def roundBits (rm : Nat) (s : Bool) (n : Nat) (k : Int) : Nat × Bool :=
  if k ≤ 0 then (n * 2 ^ (-k).toNat, false)
  else
    let d := 2 ^ k.toNat
    let q := n / d
    let r := n % d
    let up :=
      if rm = 0 then decide (d < 2 * r) || (decide (d = 2 * r) && q % 2 == 1)
      else if rm = 2 then !s && decide (0 < r)
      else if rm = 3 then s && decide (0 < r)
      else if rm = 4 then decide (d ≤ 2 * r)
      else false
    (if up then q + 1 else q, decide (r ≠ 0))

/-- Number of bits of a number. -/
def bitLen (n : Nat) : Nat := if n = 0 then 0 else Nat.log2 n + 1

/-- Round ± n × 2^e, n nonzero, into a format: the encoding and the flags (R172, R173). Tininess is judged after
rounding. -/
def Fmt.round (f : Fmt) (rm : Nat) (s : Bool) (n : Nat) (e : Int) : Nat × Nat :=
  let free := roundBits rm s n ((bitLen n : Int) - f.p)
  let tiny := decide ((bitLen free.1 : Int) + e + ((bitLen n : Int) - f.p) ≤ f.qmin + f.p - 1)
  let q := max (e + (bitLen n : Int) - f.p) f.qmin
  let r := roundBits rm s n (q - e)
  let m := if r.1 = 2 ^ f.p then r.1 / 2 else r.1
  let q1 := if r.1 = 2 ^ f.p then q + 1 else q
  if m ≠ 0 && decide ((2 : Int) ^ f.eb - 2 < q1 - f.qmin + 1) then
    (if rm = 1 || (rm = 2 && s) || (rm = 3 && !s) then (f.maxFin s, fOvf) else (f.inf s, fOvf))
  else
    let enc :=
      if m < 2 ^ (f.p - 1) then m
      else (q1 - f.qmin + 1).toNat * 2 ^ (f.p - 1) + (m - 2 ^ (f.p - 1))
    (f.zero s + enc, (if r.2 then fInx else 0) + (if r.2 && tiny then fUnf else 0))

/-- The signed integer of a finite value at an exponent not above its own. -/
def atExp (s : Bool) (m : Nat) (e x : Int) : Int :=
  let v : Int := (m * 2 ^ (e - x).toNat : Nat)
  if s then -v else v

/-- Round an exact sum; an exact zero takes the sign of R176. -/
def Fmt.roundSum (f : Fmt) (rm : Nat) (i : Int) (e : Int) (zs : Bool) : Nat × Nat :=
  if i = 0 then (f.zero zs, 0) else f.round rm (decide (i < 0)) i.natAbs e

/-- a + b of two values that are no NaN (R176). -/
def Fmt.addVals (f : Fmt) (rm : Nat) (a b : FVal) : Nat × Nat :=
  match a, b with
  | .inf s, .inf t => if s = t then (f.inf s, 0) else (f.qnan, fInv)
  | .inf s, _ => (f.inf s, 0)
  | _, .inf t => (f.inf t, 0)
  | .fin s m e, .fin t n g =>
    let x := min e g
    f.roundSum rm (atExp s m e x + atExp t n g x) x (if m = 0 && n = 0 && s = t then s else rm = 3)
  | _, _ => (f.qnan, 0)

/-- A value is a signalling NaN. -/
def FVal.isSig : FVal → Bool | .nan b => b | _ => false
/-- A value is a NaN. -/
def FVal.isNan : FVal → Bool | .nan _ => true | _ => false
/-- A value is a zero. -/
def FVal.isZero : FVal → Bool | .fin _ m _ => m == 0 | _ => false
/-- A value is an infinity. -/
def FVal.isInf : FVal → Bool | .inf _ => true | _ => false
/-- The sign of a value that is no NaN. -/
def FVal.sign : FVal → Bool | .nan _ => false | .inf s => s | .fin s _ _ => s
/-- The value with its sign inverted. -/
def FVal.neg : FVal → FVal | .nan b => .nan b | .inf s => .inf (!s) | .fin s m e => .fin (!s) m e

/-- The exact product of two values that are no NaN and no 0 × ∞. -/
def mulVals (a b : FVal) : FVal :=
  match a, b with
  | .fin s m e, .fin t n g => .fin (s != t) (m * n) (e + g)
  | _, _ => .inf (a.sign != b.sign)

/-- The NaN rows of R176 for the operands of an arithmetic opcode; else the operation. -/
def Fmt.arith (f : Fmt) (ops : List FVal) (k : Nat × Nat) : Nat × Nat :=
  if ops.any FVal.isSig then (f.qnan, fInv) else if ops.any FVal.isNan then (f.qnan, 0) else k

/-- FADD. -/
def Fmt.add (f : Fmt) (rm x y : Nat) : Nat × Nat :=
  f.arith [f.read x, f.read y] (f.addVals rm (f.read x) (f.read y))

/-- FSUB. -/
def Fmt.sub (f : Fmt) (rm x y : Nat) : Nat × Nat :=
  f.arith [f.read x, f.read y] (f.addVals rm (f.read x) (f.read y).neg)

/-- Round an exact value that is no NaN. -/
def Fmt.roundVal (f : Fmt) (rm : Nat) : FVal → Nat × Nat
  | .nan _ => (f.qnan, 0)
  | .inf s => (f.inf s, 0)
  | .fin s m e => if m = 0 then (f.zero s, 0) else f.round rm s m e

/-- FMUL. -/
def Fmt.mul (f : Fmt) (rm x y : Nat) : Nat × Nat :=
  let a := f.read x
  let b := f.read y
  f.arith [a, b]
    (if (a.isZero && b.isInf) || (a.isInf && b.isZero) then (f.qnan, fInv) else f.roundVal rm (mulVals a b))

/-- FMA, and FNMA with the product negated: one rounding of the exact value (R153, R172, R176). -/
def Fmt.fma (f : Fmt) (rm : Nat) (negate : Bool) (x y z : Nat) : Nat × Nat :=
  let a := f.read x
  let b := f.read y
  let c := f.read z
  if [a, b, c].any FVal.isSig then (f.qnan, fInv)
  else if (a.isZero && b.isInf) || (a.isInf && b.isZero) then (f.qnan, fInv)
  else if [a, b, c].any FVal.isNan then (f.qnan, 0)
  else
    let p := mulVals a b
    f.addVals rm (if negate then p.neg else p) c

/-- FDIV. -/
def Fmt.div (f : Fmt) (rm x y : Nat) : Nat × Nat :=
  let a := f.read x
  let b := f.read y
  let s := a.sign != b.sign
  f.arith [a, b]
    (match a, b with
     | .inf _, .inf _ => (f.qnan, fInv)
     | .inf _, _ => (f.inf s, 0)
     | _, .inf _ => (f.zero s, 0)
     | .fin _ m e, .fin _ n g =>
       if n = 0 then (if m = 0 then (f.qnan, fInv) else (f.inf s, fDze))
       else if m = 0 then (f.zero s, 0)
       else
         let k := f.p + 3 + bitLen n
         let q := (m * 2 ^ k) / n
         let r := (m * 2 ^ k) % n
         f.round rm s (2 * q + (if r = 0 then 0 else 1)) (e - g - k - 1)
     | _, _ => (f.qnan, 0))

/-- Integer square root, bit by bit from bit i − 1 down. -/
def isqrtFrom (n : Nat) : Nat → Nat → Nat
  | 0, r => r
  | i + 1, r => if (r + 2 ^ i) * (r + 2 ^ i) ≤ n then isqrtFrom n i (r + 2 ^ i) else isqrtFrom n i r

/-- Integer square root. -/
def isqrt (n : Nat) : Nat := isqrtFrom n (bitLen n / 2 + 1) 0

/-- FSQRT. -/
def Fmt.sqrt (f : Fmt) (rm x : Nat) : Nat × Nat :=
  let a := f.read x
  f.arith [a]
    (match a with
     | .inf s => if s then (f.qnan, fInv) else (f.inf false, 0)
     | .fin s m e =>
       if m = 0 then (f.zero s, 0)
       else if s then (f.qnan, fInv)
       else
         let k : Nat := 2 * (f.p + 3)
         let k1 : Nat := if (e - k) % 2 = 0 then k else k + 1
         let n := m * 2 ^ k1
         let r := isqrt n
         f.round rm false (2 * r + (if r * r = n then 0 else 1)) ((e - k1) / 2 - 1)
     | .nan _ => (f.qnan, 0))

/-- Compare two values that are no NaN: −1, 0 or 1; zeros are equal. -/
def cmpVals (a b : FVal) : Int :=
  match a, b with
  | .inf s, .inf t => if s = t then 0 else if s then -1 else 1
  | .inf s, _ => if s then -1 else 1
  | _, .inf t => if t then 1 else -1
  | .fin s m e, .fin t n g =>
    let x := min e g
    let d := atExp s m e x - atExp t n g x
    if d < 0 then -1 else if d = 0 then 0 else 1
  | _, _ => 0

/-- FMIN (or FMAX): minimumNumber and maximumNumber, −0 below +0 (R177). -/
def Fmt.minmax (f : Fmt) (isMax : Bool) (x y : Nat) : Nat × Nat :=
  let a := f.read x
  let b := f.read y
  let fl := if a.isSig || b.isSig then fInv else 0
  if a.isNan && b.isNan then (f.qnan, fl)
  else if a.isNan then (y % 2 ^ f.bits, fl)
  else if b.isNan then (x % 2 ^ f.bits, fl)
  else
    let lessEq := decide (cmpVals a b < 0) || (cmpVals a b == 0 && (a.sign || !b.sign))
    ((if lessEq != isMax then x else y) % 2 ^ f.bits, fl)

/-- FCMP: Z equal, N less, V unordered, C 0, and the sticky bits (R177). -/
def Fmt.cmp (f : Fmt) (x y : Nat) : Bool × Bool × Bool × Nat :=
  let a := f.read x
  let b := f.read y
  let fl := if a.isSig || b.isSig then fInv else 0
  if a.isNan || b.isNan then (false, false, true, fl)
  else (cmpVals a b == 0, decide (cmpVals a b < 0), false, fl)

/-- FNEG, FABS and FMOV: the sign bit, or the canonical NaN (R174). `how`: 0 invert, 1 clear, 2 copy. -/
def Fmt.signOp (f : Fmt) (how x : Nat) : Nat :=
  if (f.read x).isNan then f.qnan
  else
    let top := 2 ^ (f.bits - 1)
    let v := x % 2 ^ f.bits
    if how = 2 then v else if how = 1 then v % top else (v + top) % 2 ^ f.bits

/-- Float to integer in [lo, hi] (R179): the integer and the flags. -/
def toInt (rm : Nat) (lo hi : Int) : FVal → Int × Nat
  | .nan _ => (0, fInv)
  | .inf s => (if s then lo else hi, fInv)
  | .fin s m e =>
    let r := roundBits rm s m (-e)
    let v : Int := if s then -(r.1 : Int) else r.1
    if v < lo then (lo, fInv) else if hi < v then (hi, fInv) else (v, if r.2 then fInx else 0)

/-- Integer to float; zero gives +0 (R179). -/
def Fmt.ofInt (f : Fmt) (rm : Nat) (i : Int) : Nat × Nat :=
  if i = 0 then (f.zero false, 0) else f.round rm (decide (i < 0)) i.natAbs 0

/-- FCVT of a kind (R153, R179): the 64-bit result and the flags. -/
def fcvt (kind : Nat) (dbl : Bool) (rm x : Nat) : Nat × Nat :=
  let f := if dbl then double else single
  match kind with
  | 0 =>
    let a := single.read x
    if a.isSig then (double.qnan, fInv) else if a.isNan then (double.qnan, 0) else double.roundVal rm a
  | 1 =>
    let a := double.read x
    if a.isSig then (single.qnan, fInv) else if a.isNan then (single.qnan, 0) else single.roundVal rm a
  | 2 => f.ofInt rm (sx 32 x)
  | 3 => let r := toInt rm (-(2 ^ 31)) (2 ^ 31 - 1) (f.read x); (tc 64 r.1, r.2)
  | 4 => f.ofInt rm (sx 64 x)
  | 5 => let r := toInt rm (-(2 ^ 63)) (2 ^ 63 - 1) (f.read x); (tc 64 r.1, r.2)
  | 6 => f.ofInt rm ((x % 2 ^ 32 : Nat) : Int)
  | _ => let r := toInt rm 0 (2 ^ 32 - 1) (f.read x); (tc 64 r.1, r.2)

end Sys2Proof.Machine
end

