-- ==== Sys2Proof/Machine/Decimal.lean ====
section
/-! DEFINITION. Packed decimal (R180, R181): reading a field, adding two, and writing the outcome. -/
namespace Sys2Proof.Machine
open Sys2Proof

/-- Words of a field of n digits. -/
def decWords (n : Nat) : Nat := n / 4 + 1

/-- Nibble i of a field of w words, 0 most significant. -/
def decNibble (ws : List Word) (i : Nat) : Nat := fld (nth ws (i / 4)) (15 - 4 * (i % 4)) (12 - 4 * (i % 4))

/-- The value of a field of n digits, none where a nibble is invalid. -/
def decRead (n : Nat) (ws : List Word) : Option Int :=
  let w := decWords n
  let pad := 4 * w - n - 1
  let ds := (span pad n).map fun i => decNibble ws i
  let sg := decNibble ws (4 * w - 1)
  if ((span 0 pad).all fun i => decNibble ws i == 0) && (ds.all fun d => decide (d < 10)) && decide (9 < sg) then
    let v : Nat := ds.foldl (fun a d => a * 10 + d) 0
    some (if sg = 0xB || sg = 0xD then -(v : Int) else v)
  else none

/-- The digits of a number, least significant first, n of them, packed upwards by 4 bits each. -/
def decPack : Nat → Nat → Nat
  | 0, _ => 0
  | n + 1, v => v % 10 + 16 * decPack n (v / 10)

/-- The words of a field of n digits that holds the low n digits of v with sign 0xC or 0xD. -/
def decWrite (n v : Nat) (minus : Bool) : List Word :=
  wordsOf (decWords n) (decPack n v * 16 + (if minus then 0xD else 0xC))

/-- The outcome of DADD or DSUB on n digits: none where a field is invalid; else the words written, Z, N and whether the
true result needs more digits (R181). -/
def decAdd (n : Nat) (subtract : Bool) (dst src : List Word) : Option (List Word × Bool × Bool × Bool) :=
  match decRead n dst, decRead n src with
  | some a, some b =>
    let r : Int := if subtract then a - b else a + b
    let low := r.natAbs % 10 ^ n
    let minus := decide (r < 0)
    some (decWrite n low minus, decide (low = 0), minus, decide (10 ^ n ≤ r.natAbs))
  | _, _ => none

end Sys2Proof.Machine
end

