-- ==== Sys2Proof/Machine/StkMem.lean ====
section
/-! DEFINITION. Moves and memory opcodes of rows 5 and 6 (R150, R151), packed decimal (R152, R180 to R182), strings
(R155), and the read-modify-write opcodes of row D with and without ATOM (R126, R156). -/
namespace Sys2Proof.Machine
open Sys2Proof

/-- Wait for the divider before reading QUO, REM or FLAGS, or writing FLAGS (R127, R164, R171). -/
def divHolds (x : Nat) (c : Ctx) : Bool := c.div.isSome && ((decide (0x24 ≤ x) && decide (x ≤ 0x27)) || x == 0x1D)

/-- Wait for an unfinished floating-point result of an E register (R127, R175). -/
def fpHolds (ks : List Nat) (c : Ctx) : Option Nat := ks.find? fun k => c.fops.any fun f => f.ed.toNat == k

/-- Go on unless an E register is awaited. -/
def withE (ks : List Nat) (c : Ctx) (s : State) (k : Out (Option Nat)) : Out (Option Nat) :=
  match fpHolds ks c with
  | some n => .halt (.stall false (.fp n)) s
  | none => k

/-- STK_STAT.BADW is set, at once or when the path is confirmed (R117, R118). -/
def setBadw (sub : Nat) (b : Bool) (s : State) : State :=
  if !b then s
  else if onPath sub s then modStk (stkOf sub) (fun x => { x with spec := x.spec.map fun p => { p with badw := true } }) s
  else setRgBit (bStk (stkOf sub)) 1 7 true s

/-- The words of an XR register, or of the pair it heads. -/
def xrWords (i : Iss) (x : Nat) (c : Ctx) : List Word := if i.wide then [getX x c, getX (x + 1) c] else [getX x c]

/-- Write an XR register, or the pair it heads; BADW as R117 and R118 say. -/
def putX (i : Iss) (x : Nat) (ws : List Word) (c : Ctx) (s : State) : Out (Option Nat) :=
  let sub := i.sub.toNat
  if i.wide then .ok none (setDw true x (valOf ws) c) s
  else
    let r := setX x (nth ws 0) c
    .ok none r.1 (setBadw sub r.2 s)

/-- An XR operand that the opcode does not accept (R143, R150, R151). -/
def xrIllegal (i : Iss) (x : Nat) : Bool := xrBad x || (i.wide && (!xrData x || x % 2 == 1))

/-- LD: a D register takes Z and N from the value (R150). -/
def ldBody (i : Iss) (x : Nat) (e : EA) (c : Ctx) (s : State) : Out (Option Nat) :=
  if x = 0x1D && c.div.isSome then .halt (.stall false .div) s
  else
    let a := eaEval i e (width i) c
    (ldWords i.sub.toNat a.1 a.2 s).next fun ws c1 s1 =>
      putX i x ws (if xrData x then putAlu i (aluLogic (widthBits i) (valOf ws)) c1 else c1) s1

/-- LD. -/
def execLd (i : Iss) (xr : Xr) (ea : EA) (s : State) : Host.Outcome State Fault Refusal :=
  let x := xr.toNat
  act s (issue i { len := 2 + eaLen ea, wide := true, rep := !xrSpecial x, bank := eaBanked ea, noflag := xrData x
                   bad := xrIllegal i x, unitDest := xrUnit x } (ldBody i x ea))

/-- ST. -/
def stBody (i : Iss) (x : Nat) (e : EA) (c : Ctx) (s : State) : Out (Option Nat) :=
  if divHolds x c then .halt (.stall false .div) s
  else
    let a := eaEval i e (width i) c
    (stWords i.sub.toNat a.1 (xrWords i x c) a.2 s).next fun _ c1 s1 => .ok none c1 s1

/-- ST. -/
def execSt (i : Iss) (ea : EA) (xr : Xr) (s : State) : Host.Outcome State Fault Refusal :=
  let x := xr.toNat
  act s (issue i { len := 2 + eaLen ea, wide := true, rep := true, bank := eaBanked ea, bad := xrIllegal i x } (stBody i x ea))

/-- LEA: an offset, with no memory access (R150). -/
def leaBody (an : Areg) (e : EA) (c : Ctx) (s : State) : Out (Option Nat) :=
  match eaOffset e c with
  | some (m, d) => .ok none (setA an.toNat (getA m c + wd d) c) s
  | none => .ok none c s

/-- LEA takes modes 0x0, 0x3, 0x4 and 0x5 only. -/
def leaMode : EA → Bool
  | .ind _ | .disp8 _ _ | .disp16 _ _ | .index _ _ => true
  | .postInc _ | .preDec _ | .abs _ | .reg _ => false

/-- LEA. -/
def execLea (i : Iss) (an : Areg) (ea : EA) (s : State) : Host.Outcome State Fault Refusal :=
  act s (issue i { len := 2 + eaLen ea, rep := true, bad := !leaMode ea } (leaBody an ea))

/-- PUSH. -/
def pushBody (i : Iss) (x : Nat) (c : Ctx) (s : State) : Out (Option Nat) :=
  if divHolds x c then .halt (.stall false .div) s
  else (pushWords i (xrWords i x c) c s).next fun _ c1 s1 => .ok none c1 s1

/-- PUSH. -/
def execPush (i : Iss) (xr : Xr) (s : State) : Host.Outcome State Fault Refusal :=
  act s (issue i { len := 2, wide := true, rep := true, bank := true, bad := xrIllegal i xr.toNat } (pushBody i xr.toNat))

/-- POP: the loaded value is kept when XR is A7 itself (R145). -/
def popBody (i : Iss) (x : Nat) (c : Ctx) (s : State) : Out (Option Nat) :=
  if x = 0x1D && c.div.isSome then .halt (.stall false .div) s
  else (popWords i (width i) c s).next fun ws c1 s1 => putX i x ws c1 s1

/-- POP. -/
def execPop (i : Iss) (xr : Xr) (s : State) : Host.Outcome State Fault Refusal :=
  let x := xr.toNat
  act s (issue i { len := 2, wide := true, rep := !xrSpecial x, bank := true, bad := xrIllegal i x, unitDest := xrUnit x }
    (popBody i x))

/-- LDE: 4 words. -/
def ldeBody (i : Iss) (k : Nat) (e : EA) (c : Ctx) (s : State) : Out (Option Nat) :=
  withE [k] c s
    (let a := eaEval i e 4 c
     (ldWords i.sub.toNat a.1 a.2 s).next fun ws c1 s1 => .ok none (setE k (BitVec.ofNat 64 (valOf ws)) c1) s1)

/-- LDE. -/
def execLde (i : Iss) (ek : Ereg) (ea : EA) (s : State) : Host.Outcome State Fault Refusal :=
  act s (issue i { len := 2 + eaLen ea, rep := true, bank := eaBanked ea } (ldeBody i ek.toNat ea))

/-- STE: 4 words. -/
def steBody (i : Iss) (k : Nat) (e : EA) (c : Ctx) (s : State) : Out (Option Nat) :=
  withE [k] c s
    (let a := eaEval i e 4 c
     (stWords i.sub.toNat a.1 (wordsOf 4 (getE k c).toNat) a.2 s).next fun _ c1 s1 => .ok none c1 s1)

/-- STE. -/
def execSte (i : Iss) (ea : EA) (ek : Ereg) (s : State) : Host.Outcome State Fault Refusal :=
  act s (issue i { len := 2 + eaLen ea, rep := true, bank := eaBanked ea } (steBody i ek.toNat ea))

/-- MOVX. -/
def movxBody (i : Iss) (xd xs : Nat) (c : Ctx) (s : State) : Out (Option Nat) :=
  if divHolds xs c || (xd = 0x1D && c.div.isSome) then .halt (.stall false .div) s
  else putX i xd (xrWords i xs c) c s

/-- Under WIDE, XRs is an even D register, P0, P2, 0x24 or 0x26 (R150). -/
def wideSource (x : Nat) : Bool := (xrData x && x % 2 == 0) || x == 0x20 || x == 0x22 || x == 0x24 || x == 0x26

/-- MOVX. -/
def execMovx (i : Iss) (xd xs : Xr) (s : State) : Host.Outcome State Fault Refusal :=
  let d := xd.toNat
  act s (issue i { len := 3, wide := true, rep := !xrSpecial d, bad := xrIllegal i d || xrBad xs.toNat || (i.wide && !wideSource xs.toNat)
                   unitDest := xrUnit d } (movxBody i d xs.toNat))

/-- MOVXI. -/
def movxiBody (i : Iss) (xd : Nat) (v : Word) (c : Ctx) (s : State) : Out (Option Nat) :=
  if xd = 0x1D && c.div.isSome then .halt (.stall false .div) s else putX i xd [v] c s

/-- MOVXI. -/
def execMovxi (i : Iss) (xd : Xr) (imm : Word) (s : State) : Host.Outcome State Fault Refusal :=
  let d := xd.toNat
  act s (issue i { len := 4, rep := !xrSpecial d, bad := xrBad d, unitDest := xrUnit d } (movxiBody i d imm))

/-- ADDA (R150). -/
def execAdda (i : Iss) (an : Areg) (src : AddaSrc) (s : State) : Host.Outcome State Fault Refusal :=
  act s (issue i { len := match src with | .imm _ => 4 | .reg _ => 2, rep := true } fun c t =>
    .ok none (setA an.toNat (getA an.toNat c + (match src with | .imm v => v | .reg m => getD m.toNat c)) c) t)

/-- The posted-store queue takes a store when the instruction's read is done: checked first, so that a read with side
effects happens once. -/
def withRoom (sub : Nat) (c : Ctx) (s : State) (k : Out (Option Nat)) : Out (Option Nat) :=
  if 4 ≤ c.posted.length && !onPath sub s then .halt (.stall true .posted) s else k

/-- Whether every address of an access is mapped. -/
def allMapped (sub : Nat) (as : List Nat) (s : State) : Bool := as.all fun a => subPlace sub a s != .unmapped

/-- MOVE: the source EA in full, then the destination EA (R145). -/
def moveBody (i : Iss) (es ed : EA) (c : Ctx) (s : State) : Out (Option Nat) :=
  let sub := i.sub.toNat
  let a := eaEval i es (width i) c
  let b := eaEval i ed (width i) a.2
  if allMapped sub a.1 s && !allMapped sub b.1 s then .halt (.fault 0x0A (b.1.headD 0)) s
  else withRoom sub c s
    ((ldWords sub a.1 b.2 s).next fun ws c1 s1 => (stWords sub b.1 ws c1 s1).next fun _ c2 s2 => .ok none c2 s2)

/-- MOVE. -/
def execMove (i : Iss) (esrc edst : EA) (s : State) : Host.Outcome State Fault Refusal :=
  act s (issue i { len := 1 + eaLen esrc + eaLen edst, wide := true, rep := true, bank := eaBanked esrc || eaBanked edst }
    (moveBody i esrc edst))

/-! ### Packed decimal -/

/-- DADD and DSUB (R152, R181): both fields are read in full; flags and sticky bits; under REP both addresses advance. -/
def decBody (i : Iss) (subtract : Bool) (an am : Areg) (n : Nat) (c : Ctx) (s : State) : Out (Option Nat) :=
  let sub := i.sub.toNat
  let w := decWords n
  let ad := bankAddrs i an.toNat (getA an.toNat c).toNat w c
  let am' := bankAddrs i am.toNat (getA am.toNat c).toNat w c
  let step (x : Ctx) : Ctx :=
    if hasRep i then
      (let y := setA an.toNat (getA an.toNat x + wd w) x
       if am = an then y else setA am.toNat (getA am.toNat y + wd w) y)
    else x
  withRoom sub c s
    ((ldWords sub ad c s).next fun d c1 s1 => (ldWords sub am' c1 s1).next fun m c2 s2 =>
      match decAdd n subtract d m with
      | none => .ok none (step (setF (setBit (getF c2) 6 true) c2)) s2
      | some (ws, z, neg, ov) =>
        (stWords sub ad ws c2 s2).next fun _ c3 s3 =>
          let f := if ov then setBit (getF c3) 5 true else getF c3
          let f1 := if i.noflag then f else setBit (setBit f 3 z) 2 neg
          .ok none (step (setF f1 c3)) s3)

/-- DADD. -/
def execDadd (i : Iss) (an am : Areg) (n : BitVec 5) (s : State) : Host.Outcome State Fault Refusal :=
  act s (issue i { len := 3, rep := true, bank := true, noflag := true, bad := n == 0 } (decBody i false an am n.toNat))
/-- DSUB. -/
def execDsub (i : Iss) (an am : Areg) (n : BitVec 5) (s : State) : Host.Outcome State Fault Refusal :=
  act s (issue i { len := 3, rep := true, bank := true, noflag := true, bad := n == 0 } (decBody i true an am n.toNat))

/-! ### Strings -/

/-- FILLS (R155). -/
def fillsBody (i : Iss) (an : Areg) (dk : Dreg) (c : Ctx) (s : State) : Out (Option Nat) :=
  let a := eaEval i (.postInc an) (width i) c
  (stWords i.sub.toNat a.1 (xrWords i dk.toNat c) a.2 s).next fun _ c1 s1 => .ok none c1 s1

/-- FILLS. -/
def execFills (i : Iss) (an : Areg) (dk : Dreg) (s : State) : Host.Outcome State Fault Refusal :=
  act s (issue i { len := 2, wide := true, rep := true, bank := true, bad := oddW i dk } (fillsBody i an dk))

/-- This repetition is the last: REPCNT keeps the number not performed (R162). -/
def repLast (c : Ctx) : Ctx :=
  match c.rep with
  | some n => { c with rep := some 1, repEnd := n - 1 }
  | none => c

/-- SCANS (R155): a repetition ends with the one that sets Z (R162). -/
def scansBody (i : Iss) (an : Areg) (dk : Dreg) (c : Ctx) (s : State) : Out (Option Nat) :=
  let a := eaEval i (.postInc an) (width i) c
  (ldWords i.sub.toNat a.1 a.2 s).next fun ws c1 s1 =>
    let r := aluSub (widthBits i) (valOf ws) (getDw i.wide dk.toNat c1) 0
    let c2 := putAlu i r c1
    .ok none (if r.z then repLast c2 else c2) s1

/-- SCANS. -/
def execScans (i : Iss) (an : Areg) (dk : Dreg) (s : State) : Host.Outcome State Fault Refusal :=
  act s (issue i { len := 2, wide := true, rep := true, bank := true, bad := oddW i dk } (scansBody i an dk))

/-! ### Read-modify-write -/

/-- What a row D opcode makes of the old memory value m, with Dn and Dm: the new memory value if it stores, the new
context value of Dn if it writes it, and its flags. -/
structure Rmw where
  store : Option Nat
  dn : Option Nat := none
  flags : Option Alu := none
  zOnly : Option Bool := none
deriving DecidableEq, Repr

/-- Write what a row D opcode leaves in the context. -/
def putRmw (i : Iss) (dn : Dreg) (r : Rmw) (c : Ctx) : Ctx :=
  let c1 := match r.dn with | some v => setDw i.wide dn.toNat v c | none => c
  let c2 := match r.flags with | some f => putAlu i f c1 | none => c1
  match r.zOnly with | some z => setF (setBit (getF c2) 3 z) c2 | none => c2

/-- The words of an operand-wide value. -/
def opWords (i : Iss) (v : Nat) : List Word := wordsOf (width i) v

/-- Row D without ATOM: a read and a posted write (R156). -/
def rmwPlain (i : Iss) (dn : Dreg) (as : List Nat) (f : Nat → Rmw) (c : Ctx) (s : State) : Out (Option Nat) :=
  let sub := i.sub.toNat
  withRoom sub c s
    ((ldWords sub as c s).next fun ws c1 s1 =>
      let r := f (valOf ws)
      match r.store with
      | none => .ok none (putRmw i dn r c1) s1
      | some v => (stWords sub as (opWords i v) c1 s1).next fun _ c2 s2 => .ok none (putRmw i dn r c2) s2)

/-- Row D with ATOM (R126): a commit point (R97), a fence, then the read and the write in one at the target. `subop` and the
operands are those of an ATREQ (R274): Dm for CAS only. -/
def rmwAtom (i : Iss) (dn dm : Dreg) (subop : Nat) (as : List Nat) (f : Nat → Rmw) (c : Ctx) (s : State) : Out (Option Nat) :=
  let sub := i.sub.toNat
  let ps := as.map fun a => subPlace sub a s
  let a0 := as.headD 0
  if onPath sub s then .halt (.pause 1) s
  else if ps.contains .unmapped then .halt (.fault 0x0A a0) s
  else if ps.any (fun p => match p with | .reg _ => true | _ => false) then .halt (.fault 0x0B a0) s
  else if !c.posted.isEmpty then .halt (.stall false .fence) s
  else
    let s0 := modSch sub (fun x => { x with runaway := 0 }) s
    if ps.any isFluePlace then
      (if (c.got.find? fun g => g.1 == a0).isNone then
         .halt (.stall true .flue) (flAtom a0 subop i.wide (BitVec.ofNat 32 (getDw i.wide dn.toNat c))
           (if subop = 4 then BitVec.ofNat 32 (getDw i.wide dm.toNat c) else 0) (.atom sub a0 (width i)) s0)
       else
         let m := valOf (as.map fun a => ((c.got.find? fun g => g.1 == a).map fun g => g.2).getD 0)
         .ok none (putRmw i dn (f m) c) s0)
    else
      let ks := ps.map placeAddr
      let r := memReadKeys ks s0
      if r.2.1 then .halt (.fault 0x0C a0) r.2.2
      else
        let x := f (valOf r.1)
        let s1 := noteLoad sub a0 ps (if x.store.isSome then ks.zip r.1 else []) r.2.2
        let s2 := match x.store with
          | none => s1
          | some v => lookDrop sub ks (memStore (ks.zip (opWords i v)) s1)
        .ok none (putRmw i dn x c) s2

/-- A row D opcode (R156). -/
def rmwBody (i : Iss) (dn dm : Dreg) (subop : Nat) (e : EA) (f : Nat → Nat → Nat → Rmw) (c : Ctx) (s : State) : Out (Option Nat) :=
  let a := eaEval i e (width i) c
  let g (m : Nat) : Rmw := f m (getDw i.wide dn.toNat c) (getDw i.wide dm.toNat c)
  if i.atom then rmwAtom i dn dm subop a.1 g a.2 s else rmwPlain i dn a.1 g a.2 s

/-- The encoding of row D (R156, R157). -/
def rmwSig (i : Iss) (dn dm : Dreg) (ea : EA) (flags : Bool) : Sig :=
  { len := 2 + eaLen ea, wide := true, bank := eaBanked ea, atom := true, noflag := flags, bad := oddW i dn || oddW i dm }

/-- XCHG. -/
def execXchg (i : Iss) (dn : Dreg) (ea : EA) (s : State) : Host.Outcome State Fault Refusal :=
  act s (issue i (rmwSig i dn 0 ea false) (rmwBody i dn 0 0 ea fun m n _ => { store := some n, dn := some m }))
/-- ADDM. -/
def execAddm (i : Iss) (ea : EA) (dn : Dreg) (s : State) : Host.Outcome State Fault Refusal :=
  act s (issue i (rmwSig i dn 0 ea true) (rmwBody i dn 0 1 ea fun m n _ =>
    let r := aluAdd (widthBits i) m n 0
    { store := some r.res, flags := some r }))
/-- ANDM. -/
def execAndm (i : Iss) (ea : EA) (dn : Dreg) (s : State) : Host.Outcome State Fault Refusal :=
  act s (issue i (rmwSig i dn 0 ea true) (rmwBody i dn 0 2 ea fun m n _ =>
    let r := aluLogic (widthBits i) (m &&& n)
    { store := some r.res, flags := some r }))
/-- ORM. -/
def execOrm (i : Iss) (ea : EA) (dn : Dreg) (s : State) : Host.Outcome State Fault Refusal :=
  act s (issue i (rmwSig i dn 0 ea true) (rmwBody i dn 0 3 ea fun m n _ =>
    let r := aluLogic (widthBits i) (m ||| n)
    { store := some r.res, flags := some r }))
/-- CAS: Z is 1 when the store took place (R156). -/
def execCas (i : Iss) (ea : EA) (dn dm : Dreg) (s : State) : Host.Outcome State Fault Refusal :=
  act s (issue i (rmwSig i dn dm ea false) (rmwBody i dn dm 4 ea fun m n k =>
    { store := if m = n then some k else none, dn := some m, zOnly := some (m == n) }))

end Sys2Proof.Machine
end

