-- ==== Sys2Proof/Machine/StkFloat.lean ====
section
/-! DEFINITION. Rows 8 and 9: floating point (R153, R172 to R179), 64-bit integers and moves of the E registers. -/
namespace Sys2Proof.Machine
open Sys2Proof

/-- The format of an opcode: double under DBL. -/
def fmtOf (i : Iss) : Fmt := if i.dbl then double else single

/-- The operand of a format in an E register: all of it, or E[31:0] (R153). -/
def fpArg (i : Iss) (k : Ereg) (c : Ctx) : Nat := (getE k.toNat c).toNat % 2 ^ (fmtOf i).bits

/-- FLAGS.FRM. -/
def frm (c : Ctx) : Nat := fld (getF c) 15 13

/-- A floating-point operation issues: its result and sticky bits are on their way (R175). -/
def startFp (ed : Ereg) (shared : Bool) (r : Nat × Nat) (c : Ctx) (s : State) : Out (Option Nat) :=
  .ok none { c with fops := c.fops ++ [{ ed := ed, val := BitVec.ofNat 64 r.1, flags := wd r.2, shared := shared }] } s

/-- The divide and root loop of the stoker is busy (R175). -/
def loopBusy (sub : Nat) (c : Ctx) (s : State) : Bool :=
  c.fops.any (fun f => f.shared) ||
    (span (sub / 16 * 16) 16).any fun n => n != sub && (ctx n s).fops.any fun f => f.shared

/-- A pipelined operation on these E registers. -/
def fpBody (ks : List Ereg) (ed : Ereg) (f : Ctx → Nat × Nat) (c : Ctx) (s : State) : Out (Option Nat) :=
  withE ((ed :: ks).map fun k => k.toNat) c s (startFp ed false (f c) c s)

/-- The encoding of rows 8: DBL and REP are accepted. -/
def fpSig (dbl : Bool) : Sig := { len := 2, dbl := dbl, rep := true }

/-- FADD. -/
def execFadd (i : Iss) (ed ea eb : Ereg) (s : State) : Host.Outcome State Fault Refusal :=
  act s (issue i (fpSig true) (fpBody [ea, eb] ed fun c => (fmtOf i).add (frm c) (fpArg i ea c) (fpArg i eb c)))
/-- FSUB. -/
def execFsub (i : Iss) (ed ea eb : Ereg) (s : State) : Host.Outcome State Fault Refusal :=
  act s (issue i (fpSig true) (fpBody [ea, eb] ed fun c => (fmtOf i).sub (frm c) (fpArg i ea c) (fpArg i eb c)))
/-- FMUL. -/
def execFmul (i : Iss) (ed ea eb : Ereg) (s : State) : Host.Outcome State Fault Refusal :=
  act s (issue i (fpSig true) (fpBody [ea, eb] ed fun c => (fmtOf i).mul (frm c) (fpArg i ea c) (fpArg i eb c)))
/-- FMA. -/
def execFma (i : Iss) (ed ea eb ec : Ereg) (s : State) : Host.Outcome State Fault Refusal :=
  act s (issue i (fpSig true) (fpBody [ea, eb, ec] ed fun c =>
    (fmtOf i).fma (frm c) false (fpArg i ea c) (fpArg i eb c) (fpArg i ec c)))
/-- FNMA. -/
def execFnma (i : Iss) (ed ea eb ec : Ereg) (s : State) : Host.Outcome State Fault Refusal :=
  act s (issue i (fpSig true) (fpBody [ea, eb, ec] ed fun c =>
    (fmtOf i).fma (frm c) true (fpArg i ea c) (fpArg i eb c) (fpArg i ec c)))

/-- An operation of the shared loop: it waits until the loop is free (R175). -/
def fpLoopBody (i : Iss) (ks : List Ereg) (ed : Ereg) (f : Ctx → Nat × Nat) (c : Ctx) (s : State) : Out (Option Nat) :=
  withE ((ed :: ks).map fun k => k.toNat) c s
    (if loopBusy i.sub.toNat c s then .halt (.stall false .loop) s else startFp ed true (f c) c s)

/-- FDIV. -/
def execFdiv (i : Iss) (ed ea eb : Ereg) (s : State) : Host.Outcome State Fault Refusal :=
  act s (issue i (fpSig true) (fpLoopBody i [ea, eb] ed fun c => (fmtOf i).div (frm c) (fpArg i ea c) (fpArg i eb c)))
/-- FSQRT. -/
def execFsqrt (i : Iss) (ed ea : Ereg) (s : State) : Host.Outcome State Fault Refusal :=
  act s (issue i (fpSig true) (fpLoopBody i [ea] ed fun c => (fmtOf i).sqrt (frm c) (fpArg i ea c)))

/-- A result that is written as the instruction completes, with its sticky bits. -/
def fpNow (ks : List Ereg) (ed : Ereg) (f : Ctx → Nat × Nat) (c : Ctx) (s : State) : Out (Option Nat) :=
  withE ((ed :: ks).map fun k => k.toNat) c s
    (.ok none (setF (getF c ||| wd (f c).2) (setE ed.toNat (BitVec.ofNat 64 (f c).1) c)) s)

/-- FMIN. -/
def execFmin (i : Iss) (ed ea eb : Ereg) (s : State) : Host.Outcome State Fault Refusal :=
  act s (issue i (fpSig true) (fpNow [ea, eb] ed fun c => (fmtOf i).minmax false (fpArg i ea c) (fpArg i eb c)))
/-- FMAX. -/
def execFmax (i : Iss) (ed ea eb : Ereg) (s : State) : Host.Outcome State Fault Refusal :=
  act s (issue i (fpSig true) (fpNow [ea, eb] ed fun c => (fmtOf i).minmax true (fpArg i ea c) (fpArg i eb c)))

/-- FCMP (R177): Z, N, V and C := 0; a written V is no longer a divide's to write (R171). -/
def fcmpBody (i : Iss) (ea eb : Ereg) (c : Ctx) (s : State) : Out (Option Nat) :=
  withE [ea.toNat, eb.toNat] c s
    (let r := (fmtOf i).cmp (fpArg i ea c) (fpArg i eb c)
     let f := setBit (setBit (setBit (setBit (getF c ||| wd r.2.2.2) 3 r.1) 2 r.2.1) 0 r.2.2.1) 1 false
     .ok none (setF f { c with div := c.div.map fun d => { d with writeV := false } }) s)

/-- FCMP. -/
def execFcmp (i : Iss) (ea eb : Ereg) (s : State) : Host.Outcome State Fault Refusal :=
  act s (issue i (fpSig true) (fcmpBody i ea eb))
/-- FNEG. -/
def execFneg (i : Iss) (ed ea : Ereg) (s : State) : Host.Outcome State Fault Refusal :=
  act s (issue i (fpSig true) (fpNow [ea] ed fun c => ((fmtOf i).signOp 0 (fpArg i ea c), 0)))
/-- FABS. -/
def execFabs (i : Iss) (ed ea : Ereg) (s : State) : Host.Outcome State Fault Refusal :=
  act s (issue i (fpSig true) (fpNow [ea] ed fun c => ((fmtOf i).signOp 1 (fpArg i ea c), 0)))
/-- FMOV. -/
def execFmov (i : Iss) (ed ea : Ereg) (s : State) : Host.Outcome State Fault Refusal :=
  act s (issue i (fpSig true) (fpNow [ea] ed fun c => ((fmtOf i).signOp 2 (fpArg i ea c), 0)))
/-- FCVT: kinds 8 to 15 are reserved; DBL is not legal on kinds 0 and 1 (R153, R157). -/
def execFcvt (i : Iss) (ed ea : Ereg) (kind : BitVec 4) (s : State) : Host.Outcome State Fault Refusal :=
  act s (issue i { fpSig (decide (2 ≤ kind.toNat)) with bad := decide (8 ≤ kind.toNat) }
    (fpBody [ea] ed fun c => fcvt kind.toNat i.dbl (frm c) (getE ea.toNat c).toNat))

/-- The oldest unfinished operation with destination Ed completes (R175). -/
def landFp (ed : Nat) (c : Ctx) : Ctx :=
  match c.fops.find? fun f => f.ed.toNat == ed with
  | none => c
  | some f =>
    setF (getF c ||| f.flags) (setE ed f.val { c with fops := c.fops.eraseP fun g => g.ed.toNat == ed })

/-- FLOAT_RESULT_COMPLETE. -/
def execFloatResultComplete (sub : Sub) (ed : Ereg) (s : State) : Host.Outcome State Fault Refusal :=
  act s (modCtxToo sub.toNat (landFp ed.toNat))

/-! ### Moves and 64-bit integers -/

/-- MOVED: four D registers to Ek, or the reverse (R153). -/
def movedBody (dir : Bool) (k : Nat) (g : Nat) (c : Ctx) (s : State) : Out (Option Nat) :=
  withE [k] c s
    (if dir then .ok none (putRs (4 * g) (wordsOf 4 (getE k c).toNat) c) s
     else .ok none (setE k (BitVec.ofNat 64 (valOf ((span (4 * g) 4).map fun n => getD n c))) c) s)

/-- MOVED. -/
def execMoved (i : Iss) (dir : Bool) (ek : Ereg) (g : BitVec 2) (s : State) : Host.Outcome State Fault Refusal :=
  act s (issue i { len := 2, rep := true } (movedBody dir ek.toNat g.toNat))

/-- LDIE. -/
def execLdie (i : Iss) (ek : Ereg) (imm : W64) (s : State) : Host.Outcome State Fault Refusal :=
  act s (issue i { len := 10, rep := true } fun c t => withE [ek.toNat] c t (.ok none (setE ek.toNat imm c) t))

/-- A 64-bit integer operation: the result to Ed when there is one, and its flags. -/
def longBody (i : Iss) (ks : List Ereg) (ed : Option Ereg) (f : Ctx → Alu) (c : Ctx) (s : State) : Out (Option Nat) :=
  withE ((ks ++ ed.toList).map fun k => k.toNat) c s
    (let r := f c
     let c1 := match ed with | some k => setE k.toNat (BitVec.ofNat 64 r.res) c | none => c
     .ok none (putAlu i r c1) s)

/-- Ea as a number. -/
def eNat (k : Ereg) (c : Ctx) : Nat := (getE k.toNat c).toNat

/-- EADD. -/
def execEadd (i : Iss) (ed ea eb : Ereg) (s : State) : Host.Outcome State Fault Refusal :=
  act s (issue i { len := 2, rep := true, noflag := true } (longBody i [ea, eb] (some ed) fun c => aluAdd 64 (eNat ea c) (eNat eb c) 0))
/-- ESUB. -/
def execEsub (i : Iss) (ed ea eb : Ereg) (s : State) : Host.Outcome State Fault Refusal :=
  act s (issue i { len := 2, rep := true, noflag := true } (longBody i [ea, eb] (some ed) fun c => aluSub 64 (eNat ea c) (eNat eb c) 0))
/-- ECMP. -/
def execEcmp (i : Iss) (ea eb : Ereg) (s : State) : Host.Outcome State Fault Refusal :=
  act s (issue i { len := 2, rep := true } (longBody i [ea, eb] none fun c => aluSub 64 (eNat ea c) (eNat eb c) 0))
/-- ESHL. -/
def execEshl (i : Iss) (ed ea : Ereg) (n : BitVec 6) (s : State) : Host.Outcome State Fault Refusal :=
  act s (issue i { len := 3, rep := true, noflag := true } (longBody i [ea] (some ed) fun c => aluShl 64 (eNat ea c) n.toNat))
/-- ESHR. -/
def execEshr (i : Iss) (ed ea : Ereg) (n : BitVec 6) (s : State) : Host.Outcome State Fault Refusal :=
  act s (issue i { len := 3, rep := true, noflag := true } (longBody i [ea] (some ed) fun c => aluShr 64 (eNat ea c) n.toNat))
/-- ESAR. -/
def execEsar (i : Iss) (ed ea : Ereg) (n : BitVec 6) (s : State) : Host.Outcome State Fault Refusal :=
  act s (issue i { len := 3, rep := true, noflag := true } (longBody i [ea] (some ed) fun c => aluSar 64 (eNat ea c) n.toNat))

/-- MOVPE: the four P registers read in one sc (R128). -/
def movpeBody (k : Nat) (c : Ctx) (s : State) : Out (Option Nat) :=
  withE [k] c s (.ok none (setE k (BitVec.ofNat 64 (valOf ((span 0x20 4).map fun x => mget 0 x c.r))) c) s)

/-- MOVPE. -/
def execMovpe (i : Iss) (ek : Ereg) (s : State) : Host.Outcome State Fault Refusal :=
  act s (issue i { len := 2, rep := true } (movpeBody ek.toNat))

end Sys2Proof.Machine
end

