-- ==== Sys2Proof/Machine/StkFifo.lean ====
section
/-! DEFINITION. FIFO and pin opcodes of row A (R154, R184, R191 to R194, R198), and the arrivals they lead to. -/
namespace Sys2Proof.Machine
open Sys2Proof

/-- The FIFO a FIFO opcode names (R154, R184, R256, R257): none where it raises fault 0x0A. `out` is a push. -/
def fifoNamed (sub : Nat) (dg : Word) (f : Nat) (out : Bool) (s : State) : Option Nat :=
  let n := fld dg 5 0
  if bit dg 13 then
    let k := lnFifo n f
    if 32 ≤ n || (lane n s).own.map (fun x => x.toNat) != some (subFbx sub) || laneMode n s < 2 || fifoInbound k == out then none
    else some k
  else if grateOwner n s = subFbx sub then some (8 * n + f + (if out then 4 else 0))
  else none

/-- The words already on their way to a FIFO, from every context (R198). -/
def inFlight (k : Nat) (own : Nat) (c : Ctx) (s : State) : Nat :=
  let cnt (x : Ctx) : Nat := (x.pushes.filter fun p => p.fifo == k).length
  cnt c + ((s.ctx.filter fun kc => kc.1 != own).map fun kc => cnt kc.2).foldl (· + ·) 0

/-- Flags of a popped word (R154): Z and N from it, C its end-of-packet tag, V its odd-byte tag. -/
def popFlags (i : Iss) (w : FWord) (c : Ctx) : Ctx :=
  putAlu i (zn 16 w.w.toNat (some w.eop) (some w.odd)) c

/-- A word popped by REP FPOPS that is tagged end-of-packet ends the repetition (R162). -/
def endAtEop (w : FWord) (c : Ctx) : Ctx := if w.eop then repLast c else c

/-- The pop itself, when the FIFO has a word: to Dn, or for FPOPS to the word at An, which advances. -/
def popNow (i : Iss) (mem : Bool) (r k : Nat) (c : Ctx) (s : State) : Out (Option Nat) :=
  match fifoHead k s with
  | none => .halt (.stall true (.pop i mem r k)) s
  | some w =>
    if mem then
      let as := bankAddrs i r (getA r c).toNat 1 c
      (stWords i.sub.toNat as [w.w] c s).next fun _ c1 s1 =>
        .ok none (endAtEop w (popFlags i w (setA r (getA r c1 + 1) c1))) (fifoTake k s1)
    else .ok none (popFlags i w (setD r w.w c)) (fifoTake k s)

/-- FPOP and FPOPS (R97, R198): a speculative path pauses before anything else; refused names fault; an empty FIFO is a long
stall. -/
def fpopBody (i : Iss) (mem : Bool) (r : Nat) (dg : Dreg) (f : Nat) (c : Ctx) (s : State) : Out (Option Nat) :=
  let sub := i.sub.toNat
  if onPath sub s then .halt (.pause 1) s
  else match fifoNamed sub (getD dg.toNat c) f false s with
    | none => .halt (.fault 0x0A 0) s
    | some k => (commitPoint sub c s).next fun _ c1 s1 => popNow i mem r k c1 s1

/-- The encoding of FPOP. -/
def fpopSig : Sig := { len := 3, rep := true, noflag := true }
/-- The encoding of FPOPS. -/
def fpopsSig : Sig := { len := 3, rep := true, noflag := true, bank := true }

/-- FPOP. -/
def execFpop (i : Iss) (dn dg : Dreg) (f : BitVec 2) (s : State) : Host.Outcome State Fault Refusal :=
  act s (issue i fpopSig (fpopBody i false dn.toNat dg f.toNat))
/-- FPOPS. -/
def execFpops (i : Iss) (an : Areg) (dg : Dreg) (f : BitVec 2) (s : State) : Host.Outcome State Fault Refusal :=
  act s (issue i fpopsSig (fpopBody i true an.toNat dg f.toNat))

/-- The wait of an FPOP ends (R198): the word that has arrived is popped and the instruction completes. -/
def popComplete (sub : Nat) (s : State) : State :=
  let c := ctx sub s
  match c.stall with
  | .pop i mem r k =>
    (match popNow i mem r k { c with stall := .none } s with
     | .ok t c1 s1 =>
       let s2 := complete i (if mem then fpopsSig else fpopSig) t c { c1 with run := c.run } s1
       unstall sub s2
     | .halt (.fault code addr) s1 => stokerFault sub code addr s1
     | .halt _ _ => s)
  | _ => s

/-- FIFO_POP_COMPLETE. -/
def execFifoPopComplete (sub : Sub) (s : State) : Host.Outcome State Fault Refusal := act s (popComplete sub.toNat)

/-- A push into FIFO k waits: a started burst has reserved places, or the words on their way leave no room (R198, R248). -/
def pushWaits (k sub : Nat) (c : Ctx) (s : State) : Bool :=
  (fifo k s).rsvFree ≠ 0 || decide (fifoFree k s ≤ inFlight k sub c s)

/-- A push is posted, when the FIFO has room for it (R198). -/
def pushNow (i : Iss) (k : Nat) (w : FWord) (c : Ctx) (s : State) : Out (Option Nat) :=
  if pushWaits k i.sub.toNat c s then .halt (.stall true (.push k)) s
  else .ok none { c with pushes := c.pushes ++ [{ fifo := k, word := w.w, eop := w.eop, odd := w.odd }] } s

/-- FPUSH. -/
def fpushBody (i : Iss) (dg : Dreg) (f : Nat) (dn : Dreg) (eop odd : Bool) (c : Ctx) (s : State) : Out (Option Nat) :=
  let sub := i.sub.toNat
  if onPath sub s then .halt (.pause 1) s
  else match fifoNamed sub (getD dg.toNat c) f true s with
    | none => .halt (.fault 0x0A 0) s
    | some k => (commitPoint sub c s).next fun _ c1 s1 => pushNow i k { w := getD dn.toNat c1, eop := eop, odd := odd } c1 s1

/-- FPUSH. -/
def execFpush (i : Iss) (dg : Dreg) (f : BitVec 2) (dn : Dreg) (eop odd : Bool) (s : State) :
    Host.Outcome State Fault Refusal :=
  act s (issue i { len := 3, rep := true } (fpushBody i dg f.toNat dn eop odd))

/-- FPUSHS: EOP and ODD tag only the word of the last repetition (R154). -/
def fpushsBody (i : Iss) (dg : Dreg) (f : Nat) (an : Areg) (eop odd : Bool) (c : Ctx) (s : State) : Out (Option Nat) :=
  let sub := i.sub.toNat
  let last := decide (c.rep.getD 1 ≤ 1)
  if onPath sub s then .halt (.pause 1) s
  else match fifoNamed sub (getD dg.toNat c) f true s with
  | none => .halt (.fault 0x0A 0) s
  | some k =>
    (commitPoint sub c s).next fun _ c1 s1 =>
      if pushWaits k sub c1 s1 then .halt (.stall true (.push k)) s1
      else (ldWords sub (bankAddrs i an.toNat (getA an.toNat c1).toNat 1 c1) c1 s1).next fun ws c2 s2 =>
        pushNow i k { w := nth ws 0, eop := eop && last, odd := odd && last } (setA an.toNat (getA an.toNat c2 + 1) c2) s2

/-- FPUSHS. -/
def execFpushs (i : Iss) (dg : Dreg) (f : BitVec 2) (an : Areg) (eop odd : Bool) (s : State) :
    Host.Outcome State Fault Refusal :=
  act s (issue i { len := 3, rep := true, bank := true } (fpushsBody i dg f.toNat an eop odd))

/-- A posted FPUSH word reaches its FIFO, in the context's program order (R198). A push of a load whose data is awaited
has not left yet. -/
def pushArrive (sub : Nat) (s : State) : State :=
  if (ctx sub s).stall == .load then s
  else match (ctx sub s).pushes with
    | [] => s
    | p :: ps =>
      fifoPut p.fifo { w := p.word, eop := p.eop, odd := p.odd } (modCtx sub (fun c => { c with pushes := ps }) s)

/-! ### Pins -/

/-- The device pin of Dp, when the stoker's firebox owns its grate (R154, R184). -/
def pinNamed (sub : Nat) (dp : Word) (s : State) : Option Nat :=
  let p := fld dp 9 0
  if grateOwner (p / 16) s = subFbx sub then some p else none

/-- Entries of a pin's fire queue and writes on their way (R193). -/
def fqHeld (p : Nat) (s : State) : Nat := (pin p s).fq.length + (pin p s).flying.length

/-- A fire-queue write of a subchannel leaves for its pin (R191). -/
def fireSend (p : Nat) (e : FqEntry) (s : State) : State := modPin p (fun q => { q with flying := q.flying ++ [e] }) s

/-- FIRE (R100, R193): on a speculative path tentative, with a lead of at least 64 ns and a slot. -/
def fireBody (i : Iss) (dp : Dreg) (ek : Ereg) (a : BitVec 2) (c : Ctx) (s : State) : Out (Option Nat) :=
  let sub := i.sub.toNat
  withE [ek.toNat] c s
    (match pinNamed sub (getD dp.toNat c) s with
     | none => .halt (.fault 0x0A 0) s
     | some p =>
       let t := (getE ek.toNat c).toNat
       match specOf sub s with
       | none =>
         if 32 ≤ fqHeld p s then .halt (.stall false (.fire p)) s
         else .ok none c (fireSend p { time := t, act := a, sub := some sub } s)
       | some sp =>
         if t < 16 * s.ft.dtb + 1024 then .halt (.pause 3) s
         else if 16 ≤ sp.tents.length || 32 ≤ fqHeld p s then .halt (.pause 4) s
         else .ok none c (fireSend p { time := t, act := a, tent := true, sub := some sub }
           (modStk (stkOf sub) (fun x => { x with spec := x.spec.map fun q => { q with tents := q.tents ++ [(p, t)] } }) s)))

/-- FIRE. -/
def execFire (i : Iss) (dp : Dreg) (ek : Ereg) (a : BitVec 2) (s : State) : Host.Outcome State Fault Refusal :=
  act s (issue i { len := 3, bad := a == 3 } (fireBody i dp ek a))

/-- PINW: a commit point; the write is on its way (R194). -/
def pinwBody (i : Iss) (dp : Dreg) (a : BitVec 2) (c : Ctx) (s : State) : Out (Option Nat) :=
  let sub := i.sub.toNat
  if onPath sub s then .halt (.pause 1) s
  else match pinNamed sub (getD dp.toNat c) s with
  | none => .halt (.fault 0x0A 0) s
  | some p =>
    (commitPoint sub c s).next fun _ c1 s1 => .ok none c1 (modPin p (fun q => { q with pinw := q.pinw ++ [a] }) s1)

/-- PINW. -/
def execPinw (i : Iss) (dp : Dreg) (a : BitVec 2) (s : State) : Host.Outcome State Fault Refusal :=
  act s (issue i { len := 3, bad := a == 3 } (pinwBody i dp a))

/-- PINR (R194). -/
def pinrBody (i : Iss) (dn dp : Dreg) (c : Ctx) (s : State) : Out (Option Nat) :=
  match pinNamed i.sub.toNat (getD dp.toNat c) s with
  | none => .halt (.fault 0x0A 0) s
  | some p => .ok none (setD dn.toNat (wd (b2n (pin p s).lvl)) c) s

/-- PINR. -/
def execPinr (i : Iss) (dn dp : Dreg) (s : State) : Host.Outcome State Fault Refusal :=
  act s (issue i { len := 2 } (pinrBody i dn dp))

/-- PINTS (R187, R194). -/
def pintsBody (i : Iss) (ek : Ereg) (dp : Dreg) (c : Ctx) (s : State) : Out (Option Nat) :=
  withE [ek.toNat] c s
    (match pinNamed i.sub.toNat (getD dp.toNat c) s with
     | none => .halt (.fault 0x0A 0) s
     | some p => .ok none (setE ek.toNat (pin p s).stamp c) s)

/-- PINTS. -/
def execPints (i : Iss) (ek : Ereg) (dp : Dreg) (s : State) : Host.Outcome State Fault Refusal :=
  act s (issue i { len := 2 } (pintsBody i ek dp))

end Sys2Proof.Machine
end

