-- ==== Sys2Proof/Machine/StkReturn.lean ====
section
/-! DEFINITION. What comes back to a stoker from the fabric: the data of a load, the acknowledgement of a posted store, the
arrival of a pushed word, and the bus error of an unanswered transaction (R122 to R125, R133, R198, R236). -/
namespace Sys2Proof.Machine
open Sys2Proof

/-! ### Loads -/

/-- The context of an instruction undone after it issued: as it stood before, with the run state and the flags that the
scheduler keeps. -/
def ctxBack (e : LoadWait) (c : Ctx) : Ctx :=
  { e.before with
    run := c.run, stopped := c.stopped, step1 := c.step1, ovrRun := c.ovrRun, waitc := c.waitc, waitEv := c.waitEv
    waitTk := c.waitTk, stall := .none }

/-- The access of a load instruction that failed: the one there is, or which of several is not said, so a free choice. -/
def failedAccess (as : List (Nat × List Nat)) (s : State) : (Nat × List Nat) × State :=
  if as.length ≤ 1 then (as.headD (0, []), s)
  else
    let r := freshWord s
    (as.getD (r.1.toNat % as.length) (0, []), r.2)

/-- One instruction fewer has executed: the one whose load failed. -/
def uncountInstr (sub : Nat) (s : State) : State :=
  if onPath sub s then
    modStk (stkOf sub) (fun x => { x with spec := x.spec.map fun p => { p with instrs := p.instrs - 1 } }) s
  else countBy (bStk (stkOf sub)) 8 (2 ^ 32 - 1) s

/-- The load's instruction has no side effects (R133): memory that an ATOM access replaced, the context and the store buffer
are as before it. -/
def undoLoad (sub : Nat) (e : LoadWait) (s : State) : State :=
  let done := (ctx sub s).rep.isNone
  let s1 := forAll (span 0 e.old.length) (fun i t =>
    match e.old[i]? with | some kw => memPut kw.1 kw.2 t | none => t) s
  let s2 := doIf done (uncountInstr sub) { s1 with loads := merase sub s1.loads }
  let cut (p : Spec) : Spec := if p.owner = ctxOf sub then { p with sbuf := p.sbuf.take e.sbuf } else p
  let s3 := modStk (stkOf sub) (fun x => { x with spec := x.spec.map cut }) s2
  modCtx sub (ctxBack e) s3

/-- An access at addr of a load instruction fails: the instruction is undone and faults with this code. -/
def failLoad (sub code addr : Nat) (e : LoadWait) (s : State) : State :=
  stokerFaultAt sub code addr e.before.pc.toNat (undoLoad sub e s)

/-- The data of a load arrives (R122): with an uncorrectable error found now it faults, else the context goes on. -/
def loadReturn (sub err : Nat) (s : State) : State :=
  if (ctx sub s).stall != .load then s
  else match s.loads.find? fun kv => kv.1 == sub with
    | none => s
    | some (_, e) =>
      if err = 0 then unstall sub { s with loads := merase sub s.loads }
      else
        let a := failedAccess (e.accs.filter fun x => !x.2.isEmpty) s
        match a.1.2 with
        | [] => unstall sub { a.2 with loads := merase sub a.2.loads }
        | k :: _ =>
          let u := upset (onPath sub s) k err a.2
          if u.1 then failLoad sub 0x0C a.1.1 e u.2
          else
            let r := if onPath sub s then memReadQuiet k u.2 else memRead k u.2
            if r.2.1 then failLoad sub 0x0C a.1.1 e r.2.2
            else unstall sub { r.2.2 with loads := merase sub r.2.2.loads }

/-- LOAD_DATA_RETURN. -/
def execLoadDataReturn (sub : Sub) (err : BitVec 3) (s : State) : Host.Outcome State Fault Refusal :=
  act s (loadReturn sub.toNat err.toNat)

/-! ### Stores -/

/-- Some word of the store goes to a register rather than memory. -/
def toRegs (st : Store) : Bool := st.addr.any fun a => decide (0x20000000 ≤ a) && decide (a < 0x30000000)

/-- The store writes EVDONE of its stoker, which waits for the stores before it (R125). -/
def writesEvdone (sub : Nat) (st : Store) : Bool := st.addr.contains (ra (bStk (stkOf sub)) 0x201)

/-- A store reaches its registers: one access where its addresses are consecutive. -/
def storeRegs (sub : Nat) (st : Store) (s : State) : State :=
  let src : Src := .stoker (BitVec.ofNat 13 sub)
  let a := st.addr.headD 0
  if st.addr = span a st.addr.length then busWrites src a st.words s
  else (st.addr.zip st.words).foldl (fun t aw => if toRegs { st with addr := [aw.1] } then busWrite src aw.1 aw.2 t
    else memStore [aw] t) s

/-- The words of a store reach their memory. -/
def storeMem (st : Store) (s : State) : State := memStore (st.addr.zip st.words) s

/-- The store's target takes it, or refuses it where its memory is no longer mapped (R124, R133); a GDDR6 burst that never
passes its check fails (R239). -/
def storeArrive (sub : Nat) (st : Store) (edc : Nat) (s : State) : State :=
  if toRegs st then storeRegs sub st s
  else if st.addr.any fun k => place none none k s != .mem k then storeFailed sub st s
  else
    let r := edcStore (st.addr.zip st.words) edc s
    if r.1 then storeFailed sub st r.2 else r.2

/-- The unit a store's address lies in: an SRAM, a register block, GDDR6, or the flue. DEDUCED (log 98): R125's "target". -/
def targetOf (st : Store) : Nat :=
  let a := st.addr.headD 0
  if a < 0x20000000 then (sramCtl a).1 else if a < 0x40000000 then 0x10000 + a / 0x10000 else if a < 0x80000000 then 1 else 2

/-- Another context of the stoker has issued a store to the same target before this one (R125). -/
def outOfOrder (sub : Nat) (st : Store) (s : State) : Bool :=
  (span (sub / 16 * 16) 16).any fun n => n != sub && (ctx n s).posted.any fun p =>
    p.tags.isEmpty && decide (p.seq < st.seq) && targetOf p == targetOf st

/-- The oldest posted store that is not on the flue, with the stores before it (R124). -/
def oldestStore (sub : Nat) (s : State) : Option (Store × List Store × List Store) :=
  let q := (ctx sub s).posted
  let pre := q.takeWhile fun st => !st.tags.isEmpty
  match q.drop pre.length with
  | [] => none
  | st :: rest => if writesEvdone sub st && !pre.isEmpty then none else some (st, pre, rest)

/-- A posted store is acknowledged by its target (R124); stores of one stoker to one target in issue order (R125). While the
context awaits a load's data nothing of it moves. -/
def storeAck (sub : Nat) (edc : Nat) (s : State) : State :=
  if (ctx sub s).stall == .load then s
  else match oldestStore sub s with
    | none => s
    | some (st, pre, rest) =>
      if outOfOrder sub st s then s
      else
        lookDrop sub st.addr (storeArrive sub st edc
          (modCtx sub (fun c => drainInto [] { c with posted := pre ++ rest }) s))

/-- STORE_ACK. -/
def execStoreAck (sub : Sub) (edc : BitVec 2) (s : State) : Host.Outcome State Fault Refusal :=
  act s (storeAck sub.toNat edc.toNat)

/-- FIFO_PUSH_ARRIVAL. -/
def execFifoPushArrival (sub : Sub) (s : State) : Host.Outcome State Fault Refusal := act s (pushArrive sub.toNat)

/-! ### Bus errors (R236) -/

/-- A requester of hearth h declares a bus error: FAB_TMO_CNT counts it, and HRT_FAB_TMO detects it unless the target lies in
a unit whose reset explains it (R341). -/
def busError (h addr : Nat) (s : State) : State :=
  let s1 := count (bHrt h) 0x814 s
  if shadowAddr addr s then count (bHrt h) 0x7008 s1 else raise (bHrt h) 2 0 s1

/-- The requests of a stoker's context that the flue still owes an answer: dropped, and the address of the first. -/
def dropLoads (sub : Nat) (s : State) : Nat × State :=
  let mine (o : Outst) : Bool := match o with
    | .load n _ _ => n == sub
    | .atom n _ _ => n == sub
    | _ => false
  let a := match s.outst.find? fun kv => mine kv.2 with
    | some (_, .load _ a _) => a
    | some (_, .atom _ a _) => a
    | _ => 0
  (a, { s with outst := s.outst.filter fun kv => !mine kv.2 })

/-- A load or an ATOM access has no answer (R123). On a speculative path it is poison and reports nothing (R85, R102). -/
def loadTimeout (sub : Nat) (s : State) : State :=
  let h := hrtOf (stkOf sub)
  if (ctx sub s).stall == .load then
    (match s.loads.find? fun kv => kv.1 == sub with
     | none => s
     | some (_, e) =>
       let a := failedAccess e.accs s
       failLoad sub 0x0E a.1.1 e (doIf (!onPath sub s) (busError h a.1.1) a.2))
  else if (ctx sub s).stall == .flue then
    let d := dropLoads sub s
    stokerFault sub 0x0E d.1 (busError h d.1 (modCtx sub (fun c => { c with got := [], stall := .none }) d.2))
  else s

/-- A posted store has no answer (R123): whether it took effect is open (R236). One on the flue is in its packet, which may
still reach its device. -/
def storeTimeout (sub : Nat) (s : State) : State :=
  if (ctx sub s).stall == .load then s
  else match (ctx sub s).posted with
    | [] => s
    | st :: rest =>
      let s1 := modCtx sub (fun c => drainInto [] { c with posted := rest }) s
      let s2 := { s1 with outst := s1.outst.filter fun kv => !st.tags.any fun t => t.toNat == kv.1 }
      let r := freshWord s2
      let lands := bit r.1 0 && st.tags.isEmpty && (toRegs st || !(st.addr.any fun k => place none none k r.2 != .mem k))
      storeFailed sub st (busError (hrtOf (stkOf sub)) (st.addr.headD 0)
        (doIf lands (fun t => lookDrop sub st.addr (if toRegs st then storeRegs sub st t else storeMem st t)) r.2))

/-- A code fetch that an instruction needs has no answer (R123); the address is that of the line's first word. -/
def codeTimeout (sub a : Nat) (s : State) : State :=
  let waits := match (ctx sub s).stall with | .code _ => true | _ => false
  if !waits && !mayIssue sub s then s
  else stokerFault sub 0x0E (a / 32 * 32)
    (doIf (!onPath sub s) (busError (hrtOf (stkOf sub)) a) (doIf waits (modCtx sub fun c => { c with stall := .none }) s))

/-- The fetch of a CCW has no answer: the program ends with IFCHK, and the fault record names the CCW (R63, R236). -/
def fetchTimeout (sub : Nat) (s : State) : State :=
  let x := sch sub s
  let go (f : FetchInfo) (running : Bool) : State :=
    let s1 := busError (hrtOf (stkOf sub)) f.addr.toNat (modSch sub (fun y => { y with ccw := f.addr }) s)
    failStep sub running (0x8, 0) 0 (faultRecord sub 0x0E f.addr.toNat s1)
  match x.phase, x.dcFetch with
  | .fetch f, _ => go f false
  | _, some f => go f true
  | _, none => s

/-- The fetch of a command table entry (ida false) or of an IDA entry of the CCW whose words have come has no answer (R237): the
program ends with BUSERR at that CCW. Outside a CCW fetch it is the next IDA entry of the running transfer. -/
def listTimeout (ida : Bool) (sub : Nat) (s : State) : State :=
  let x := sch sub s
  let go (f : FetchInfo) (running : Bool) : State :=
    let r := subReads sub f.addr.toNat 8 s
    let a := if ida then wDaddr r.1 else cmdAddr sub (wCode r.1) s
    let s1 := modSch sub (fun y => { y with ccw := f.addr, runaway := y.runaway + 1 }) r.2.2
    if r.2.1 || !wProc r.1 || (ida && !wFlag r.1 4) || !ctlOk sub a s then s
    else failStep sub running (0x8, 0) (if running then 0 else idleResid r.1)
      (faultRecord sub 0x0E a (busError (hrtOf (stkOf sub)) a s1))
  match x.phase, x.dcFetch with
  | .fetch f, _ => go f false
  | _, some f => go f true
  | .proc, none | .deferred, none =>
    if ida && decide (0 < x.more) then
      failStep sub true (0x8, 0) 0 (faultRecord sub 0x0E x.idaPtr.toNat (busError (hrtOf (stkOf sub)) x.idaPtr.toNat s))
    else s
  | _, none => s

/-- A transaction of a draught channel has no answer (R246). -/
def draughtTimeout (f n : Nat) (s : State) : State :=
  let k := 16 * f + n
  if !chBusy (chan k s) || (!(chan k s).fetching && (chan k s).burst.isNone) then s
  else drTimeout k (count (bHrt (f / 8)) 0x814 s)

/-- No OPCPL has come to work queue n (R284); with none awaited, the read of its next poll has no answer (R393). -/
def wqTimeout (n : Nat) (s : State) : State :=
  if !(wq n s).remote then silence (.wq (BitVec.ofNat 6 n)) s
  else modWq n (fun q => { q with
    remote := false, answer := q.answer.map fun a => { a with aux := 0x20, dstat := a.dstat ||| 0x08 } })
    { s with outst := s.outst.filter fun kv => kv.2 != .wq n }

/-- No OPCPL has come to a RESUME-OTHER (R284). -/
def resumeTimeout (sub : Nat) (s : State) : State :=
  resumeDone sub 0x20 false { s with outst := s.outst.filter fun kv => kv.2 != .resume sub }

/-- An access of the I3C window or of the bulk port has no answer: the one through the flue that it awaits, else the next one to
this device (R236, R393). -/
def hostTimeout (src : Src) (s : State) : State :=
  if s.outst.any fun kv => kv.2 == .win (srcNo src) then
    hostGo { s with
      outst := s.outst.filter fun kv => kv.2 != .win (srcNo src), winGot := s.winGot ++ [(srcNo src, 2, [])] }
  else hostGo (silence (.host (src == .bulk)) s)

/-- A transaction unanswered for 2 µs is a bus error at its requester (R236). -/
def busTimeout (r : BusReq) (s : State) : State :=
  match r with
  | .load sub => loadTimeout sub.toNat s
  | .store sub => storeTimeout sub.toNat s
  | .code sub a => codeTimeout sub.toNat a.toNat s
  | .ccw sub => fetchTimeout sub.toNat s
  | .table sub => listTimeout false sub.toNat s
  | .ida sub => listTimeout true sub.toNat s
  | .draught f n => draughtTimeout f.toNat n.toNat s
  | .wq n => wqTimeout n.toNat s
  | .resume sub => resumeTimeout sub.toNat s
  | .host bulk => hostTimeout (if bulk then .bulk else .i3c) s
  | .port p => silence (.port p) s

/-- BUS_ERROR_TIMEOUT. -/
def execBusErrorTimeout (req : BusReq) (s : State) : Host.Outcome State Fault Refusal := act s (busTimeout req)

end Sys2Proof.Machine
end

