-- ==== Sys2Proof/Machine/Dispatch.lean ====
section
/-! DEFINITION. One arm for each command: a direct call of its meaning. -/
namespace Sys2Proof.Machine

def exec (i : Instr) (s : State) : Host.Outcome State Fault Refusal :=
  match i with
  | .dtbLoad a0 a1 => Sys2Proof.Machine.execDtbLoad a0 a1 s
  | .dtbW0Read a0 => Sys2Proof.Machine.execDtbW0Read a0 s
  | .frmCtlRunSet a0 a1 => Sys2Proof.Machine.execFrmCtlRunSet a0 a1 s
  | .frmCtlRunClear a0 a1 => Sys2Proof.Machine.execFrmCtlRunClear a0 a1 s
  | .frameStopComplete => Sys2Proof.Machine.execFrameStopComplete s
  | .frmPeriodHiWrite a0 a1 => Sys2Proof.Machine.execFrmPeriodHiWrite a0 a1 s
  | .frmPeriodLoWrite a0 a1 => Sys2Proof.Machine.execFrmPeriodLoWrite a0 a1 s
  | .ashNsWrite a0 a1 => Sys2Proof.Machine.execAshNsWrite a0 a1 s
  | .syncCtlWrite a0 a1 => Sys2Proof.Machine.execSyncCtlWrite a0 a1 s
  | .tickDecision => Sys2Proof.Machine.execTickDecision s
  | .tick => Sys2Proof.Machine.execTick s
  | .shadowSwitch => Sys2Proof.Machine.execShadowSwitch s
  | .syncOutPulseEnd => Sys2Proof.Machine.execSyncOutPulseEnd s
  | .syncInPulse a0 => Sys2Proof.Machine.execSyncInPulse a0 s
  | .syncWindowClose => Sys2Proof.Machine.execSyncWindowClose s
  | .ashSlotStart a0 => Sys2Proof.Machine.execAshSlotStart a0 s
  | .scheduleWindowStart a0 a1 => Sys2Proof.Machine.execScheduleWindowStart a0 a1 s
  | .scheduleWindowEnd a0 a1 => Sys2Proof.Machine.execScheduleWindowEnd a0 a1 s
  | .schedSwapRequest a0 a1 => Sys2Proof.Machine.execSchedSwapRequest a0 a1 s
  | .slotWrite a0 a1 a2 a3 a4 a5 => Sys2Proof.Machine.execSlotWrite a0 a1 a2 a3 a4 a5 s
  | .start a0 a1 a2 a3 => Sys2Proof.Machine.execStart a0 a1 a2 a3 s
  | .halt a0 a1 => Sys2Proof.Machine.execHalt a0 a1 s
  | .clear a0 a1 => Sys2Proof.Machine.execClear a0 a1 s
  | .resume a0 a1 => Sys2Proof.Machine.execResume a0 a1 s
  | .modify a0 a1 a2 => Sys2Proof.Machine.execModify a0 a1 a2 s
  | .test a0 a1 => Sys2Proof.Machine.execTest a0 a1 s
  | .retirePath a0 a1 a2 => Sys2Proof.Machine.execRetirePath a0 a1 a2 s
  | .restorePath a0 a1 a2 => Sys2Proof.Machine.execRestorePath a0 a1 a2 s
  | .operationMalformed a0 a1 => Sys2Proof.Machine.execOperationMalformed a0 a1 s
  | .ccwFetchComplete a0 => Sys2Proof.Machine.execCcwFetchComplete a0 s
  | .timedWaitExpiry a0 => Sys2Proof.Machine.execTimedWaitExpiry a0 s
  | .ccwTimeout a0 => Sys2Proof.Machine.execCcwTimeout a0 s
  | .statusPost a0 => Sys2Proof.Machine.execStatusPost a0 s
  | .lookaheadFetch a0 => Sys2Proof.Machine.execLookaheadFetch a0 s
  | .dataPrefetch a0 => Sys2Proof.Machine.execDataPrefetch a0 s
  | .speculativeEntry a0 => Sys2Proof.Machine.execSpeculativeEntry a0 s
  | .deferredStatusDelivery a0 => Sys2Proof.Machine.execDeferredStatusDelivery a0 s
  | .tentativeHorizon a0 a1 => Sys2Proof.Machine.execTentativeHorizon a0 a1 s
  | .nop a0 => Sys2Proof.Machine.execNop a0 s
  | .trap a0 => Sys2Proof.Machine.execTrap a0 s
  | .fence a0 => Sys2Proof.Machine.execFence a0 s
  | .wait a0 a1 a2 => Sys2Proof.Machine.execWait a0 a1 a2 s
  | .retc a0 => Sys2Proof.Machine.execRetc a0 s
  | .retd a0 => Sys2Proof.Machine.execRetd a0 s
  | .ret a0 => Sys2Proof.Machine.execRet a0 s
  | .endl a0 => Sys2Proof.Machine.execEndl a0 s
  | .call a0 a1 => Sys2Proof.Machine.execCall a0 a1 s
  | .callReg a0 a1 => Sys2Proof.Machine.execCallReg a0 a1 s
  | .jmp a0 a1 => Sys2Proof.Machine.execJmp a0 a1 s
  | .jmpReg a0 a1 => Sys2Proof.Machine.execJmpReg a0 a1 s
  | .loop a0 a1 a2 => Sys2Proof.Machine.execLoop a0 a1 a2 s
  | .loopd a0 a1 a2 => Sys2Proof.Machine.execLoopd a0 a1 a2 s
  | .bcc a0 a1 a2 => Sys2Proof.Machine.execBcc a0 a1 a2 s
  | .mov a0 a1 a2 => Sys2Proof.Machine.execMov a0 a1 a2 s
  | .add a0 a1 a2 => Sys2Proof.Machine.execAdd a0 a1 a2 s
  | .adc a0 a1 a2 => Sys2Proof.Machine.execAdc a0 a1 a2 s
  | .sub a0 a1 a2 => Sys2Proof.Machine.execSub a0 a1 a2 s
  | .sbc a0 a1 a2 => Sys2Proof.Machine.execSbc a0 a1 a2 s
  | .cmp a0 a1 a2 => Sys2Proof.Machine.execCmp a0 a1 a2 s
  | .and a0 a1 a2 => Sys2Proof.Machine.execAnd a0 a1 a2 s
  | .or a0 a1 a2 => Sys2Proof.Machine.execOr a0 a1 a2 s
  | .xor a0 a1 a2 => Sys2Proof.Machine.execXor a0 a1 a2 s
  | .tst a0 a1 a2 => Sys2Proof.Machine.execTst a0 a1 a2 s
  | .neg a0 a1 a2 => Sys2Proof.Machine.execNeg a0 a1 a2 s
  | .not a0 a1 a2 => Sys2Proof.Machine.execNot a0 a1 a2 s
  | .shl a0 a1 a2 => Sys2Proof.Machine.execShl a0 a1 a2 s
  | .shr a0 a1 a2 => Sys2Proof.Machine.execShr a0 a1 a2 s
  | .sar a0 a1 a2 => Sys2Proof.Machine.execSar a0 a1 a2 s
  | .rol a0 a1 a2 => Sys2Proof.Machine.execRol a0 a1 a2 s
  | .ld a0 a1 a2 => Sys2Proof.Machine.execLd a0 a1 a2 s
  | .st a0 a1 a2 => Sys2Proof.Machine.execSt a0 a1 a2 s
  | .lea a0 a1 a2 => Sys2Proof.Machine.execLea a0 a1 a2 s
  | .push a0 a1 => Sys2Proof.Machine.execPush a0 a1 s
  | .pop a0 a1 => Sys2Proof.Machine.execPop a0 a1 s
  | .lde a0 a1 a2 => Sys2Proof.Machine.execLde a0 a1 a2 s
  | .ste a0 a1 a2 => Sys2Proof.Machine.execSte a0 a1 a2 s
  | .movx a0 a1 a2 => Sys2Proof.Machine.execMovx a0 a1 a2 s
  | .movxi a0 a1 a2 => Sys2Proof.Machine.execMovxi a0 a1 a2 s
  | .adda a0 a1 a2 => Sys2Proof.Machine.execAdda a0 a1 a2 s
  | .ext a0 a1 => Sys2Proof.Machine.execExt a0 a1 s
  | .swpb a0 a1 => Sys2Proof.Machine.execSwpb a0 a1 s
  | .move a0 a1 a2 => Sys2Proof.Machine.execMove a0 a1 a2 s
  | .mulu a0 a1 a2 => Sys2Proof.Machine.execMulu a0 a1 a2 s
  | .muls a0 a1 a2 => Sys2Proof.Machine.execMuls a0 a1 a2 s
  | .productLanding a0 a1 => Sys2Proof.Machine.execProductLanding a0 a1 s
  | .divu a0 a1 a2 => Sys2Proof.Machine.execDivu a0 a1 a2 s
  | .divs a0 a1 a2 => Sys2Proof.Machine.execDivs a0 a1 a2 s
  | .divideComplete a0 => Sys2Proof.Machine.execDivideComplete a0 s
  | .dadd a0 a1 a2 a3 => Sys2Proof.Machine.execDadd a0 a1 a2 a3 s
  | .dsub a0 a1 a2 a3 => Sys2Proof.Machine.execDsub a0 a1 a2 a3 s
  | .fadd a0 a1 a2 a3 => Sys2Proof.Machine.execFadd a0 a1 a2 a3 s
  | .fsub a0 a1 a2 a3 => Sys2Proof.Machine.execFsub a0 a1 a2 a3 s
  | .fmul a0 a1 a2 a3 => Sys2Proof.Machine.execFmul a0 a1 a2 a3 s
  | .fma a0 a1 a2 a3 a4 => Sys2Proof.Machine.execFma a0 a1 a2 a3 a4 s
  | .fnma a0 a1 a2 a3 a4 => Sys2Proof.Machine.execFnma a0 a1 a2 a3 a4 s
  | .fdiv a0 a1 a2 a3 => Sys2Proof.Machine.execFdiv a0 a1 a2 a3 s
  | .fsqrt a0 a1 a2 => Sys2Proof.Machine.execFsqrt a0 a1 a2 s
  | .fmin a0 a1 a2 a3 => Sys2Proof.Machine.execFmin a0 a1 a2 a3 s
  | .fmax a0 a1 a2 a3 => Sys2Proof.Machine.execFmax a0 a1 a2 a3 s
  | .fcmp a0 a1 a2 => Sys2Proof.Machine.execFcmp a0 a1 a2 s
  | .fneg a0 a1 a2 => Sys2Proof.Machine.execFneg a0 a1 a2 s
  | .fabs a0 a1 a2 => Sys2Proof.Machine.execFabs a0 a1 a2 s
  | .fcvt a0 a1 a2 a3 => Sys2Proof.Machine.execFcvt a0 a1 a2 a3 s
  | .fmov a0 a1 a2 => Sys2Proof.Machine.execFmov a0 a1 a2 s
  | .floatResultComplete a0 a1 => Sys2Proof.Machine.execFloatResultComplete a0 a1 s
  | .moved a0 a1 a2 a3 => Sys2Proof.Machine.execMoved a0 a1 a2 a3 s
  | .ldie a0 a1 a2 => Sys2Proof.Machine.execLdie a0 a1 a2 s
  | .eadd a0 a1 a2 a3 => Sys2Proof.Machine.execEadd a0 a1 a2 a3 s
  | .esub a0 a1 a2 a3 => Sys2Proof.Machine.execEsub a0 a1 a2 a3 s
  | .ecmp a0 a1 a2 => Sys2Proof.Machine.execEcmp a0 a1 a2 s
  | .eshl a0 a1 a2 a3 => Sys2Proof.Machine.execEshl a0 a1 a2 a3 s
  | .eshr a0 a1 a2 a3 => Sys2Proof.Machine.execEshr a0 a1 a2 a3 s
  | .esar a0 a1 a2 a3 => Sys2Proof.Machine.execEsar a0 a1 a2 a3 s
  | .movpe a0 a1 => Sys2Proof.Machine.execMovpe a0 a1 s
  | .fpop a0 a1 a2 a3 => Sys2Proof.Machine.execFpop a0 a1 a2 a3 s
  | .fpush a0 a1 a2 a3 a4 a5 => Sys2Proof.Machine.execFpush a0 a1 a2 a3 a4 a5 s
  | .fpops a0 a1 a2 a3 => Sys2Proof.Machine.execFpops a0 a1 a2 a3 s
  | .fpushs a0 a1 a2 a3 a4 a5 => Sys2Proof.Machine.execFpushs a0 a1 a2 a3 a4 a5 s
  | .fifoPopComplete a0 => Sys2Proof.Machine.execFifoPopComplete a0 s
  | .fire a0 a1 a2 a3 => Sys2Proof.Machine.execFire a0 a1 a2 a3 s
  | .pinw a0 a1 a2 => Sys2Proof.Machine.execPinw a0 a1 a2 s
  | .pinr a0 a1 a2 => Sys2Proof.Machine.execPinr a0 a1 a2 s
  | .pints a0 a1 a2 => Sys2Proof.Machine.execPints a0 a1 a2 s
  | .fills a0 a1 a2 => Sys2Proof.Machine.execFills a0 a1 a2 s
  | .scans a0 a1 a2 => Sys2Proof.Machine.execScans a0 a1 a2 s
  | .bset a0 a1 a2 => Sys2Proof.Machine.execBset a0 a1 a2 s
  | .bclr a0 a1 a2 => Sys2Proof.Machine.execBclr a0 a1 a2 s
  | .btst a0 a1 a2 => Sys2Proof.Machine.execBtst a0 a1 a2 s
  | .bchg a0 a1 a2 => Sys2Proof.Machine.execBchg a0 a1 a2 s
  | .bfx a0 a1 a2 a3 a4 => Sys2Proof.Machine.execBfx a0 a1 a2 a3 a4 s
  | .bfi a0 a1 a2 a3 a4 => Sys2Proof.Machine.execBfi a0 a1 a2 a3 a4 s
  | .xchg a0 a1 a2 => Sys2Proof.Machine.execXchg a0 a1 a2 s
  | .addm a0 a1 a2 => Sys2Proof.Machine.execAddm a0 a1 a2 s
  | .andm a0 a1 a2 => Sys2Proof.Machine.execAndm a0 a1 a2 s
  | .orm a0 a1 a2 => Sys2Proof.Machine.execOrm a0 a1 a2 s
  | .cas a0 a1 a2 a3 => Sys2Proof.Machine.execCas a0 a1 a2 a3 s
  | .loadDataReturn a0 a1 => Sys2Proof.Machine.execLoadDataReturn a0 a1 s
  | .storeAck a0 a1 => Sys2Proof.Machine.execStoreAck a0 a1 s
  | .icacheLineFill a0 a1 a2 a3 => Sys2Proof.Machine.execIcacheLineFill a0 a1 a2 a3 s
  | .icInv a0 a1 a2 => Sys2Proof.Machine.execIcInv a0 a1 a2 s
  | .codemapWrite a0 a1 a2 a3 => Sys2Proof.Machine.execCodemapWrite a0 a1 a2 a3 s
  | .icPreload a0 a1 a2 => Sys2Proof.Machine.execIcPreload a0 a1 a2 s
  | .evnumRead a0 a1 => Sys2Proof.Machine.execEvnumRead a0 a1 s
  | .evdoneWrite a0 a1 a2 => Sys2Proof.Machine.execEvdoneWrite a0 a1 a2 s
  | .ctxStateWrite a0 a1 a2 a3 => Sys2Proof.Machine.execCtxStateWrite a0 a1 a2 a3 s
  | .debugStop a0 a1 a2 => Sys2Proof.Machine.execDebugStop a0 a1 a2 s
  | .debugStep a0 a1 a2 => Sys2Proof.Machine.execDebugStep a0 a1 a2 s
  | .stkHoldWrite a0 a1 a2 => Sys2Proof.Machine.execStkHoldWrite a0 a1 a2 s
  | .grateOwnerRequest a0 a1 a2 => Sys2Proof.Machine.execGrateOwnerRequest a0 a1 a2 s
  | .pinEdgeAccepted a0 a1 a2 a3 => Sys2Proof.Machine.execPinEdgeAccepted a0 a1 a2 a3 s
  | .fireArrival a0 a1 => Sys2Proof.Machine.execFireArrival a0 a1 s
  | .fireQueueFire a0 => Sys2Proof.Machine.execFireQueueFire a0 s
  | .pinWriteEffect a0 => Sys2Proof.Machine.execPinWriteEffect a0 s
  | .pinReadbackCheck a0 a1 => Sys2Proof.Machine.execPinReadbackCheck a0 a1 s
  | .fifoPushArrival a0 => Sys2Proof.Machine.execFifoPushArrival a0 s
  | .fifoFlush a0 a1 => Sys2Proof.Machine.execFifoFlush a0 a1 s
  | .fifoDrop a0 a1 => Sys2Proof.Machine.execFifoDrop a0 a1 s
  | .seqKick a0 a1 a2 => Sys2Proof.Machine.execSeqKick a0 a1 a2 s
  | .seqStop a0 a1 => Sys2Proof.Machine.execSeqStop a0 a1 s
  | .sqUwWrite a0 a1 a2 a3 => Sys2Proof.Machine.execSqUwWrite a0 a1 a2 a3 s
  | .sqBt0Write a0 a1 a2 => Sys2Proof.Machine.execSqBt0Write a0 a1 a2 s
  | .sqBt1Write a0 a1 a2 => Sys2Proof.Machine.execSqBt1Write a0 a1 a2 s
  | .seqNop a0 a1 => Sys2Proof.Machine.execSeqNop a0 a1 s
  | .drv a0 a1 => Sys2Proof.Machine.execDrv a0 a1 s
  | .drvm a0 a1 => Sys2Proof.Machine.execDrvm a0 a1 s
  | .oem a0 a1 => Sys2Proof.Machine.execOem a0 a1 s
  | .smp a0 a1 => Sys2Proof.Machine.execSmp a0 a1 s
  | .seqWait a0 a1 => Sys2Proof.Machine.execSeqWait a0 a1 s
  | .wedge a0 a1 => Sys2Proof.Machine.execWedge a0 a1 s
  | .wlvl a0 a1 => Sys2Proof.Machine.execWlvl a0 a1 s
  | .seqHoldEnd a0 a1 a2 a3 => Sys2Proof.Machine.execSeqHoldEnd a0 a1 a2 a3 s
  | .ldi a0 a1 => Sys2Proof.Machine.execLdi a0 a1 s
  | .seqMov a0 a1 => Sys2Proof.Machine.execSeqMov a0 a1 s
  | .addi a0 a1 => Sys2Proof.Machine.execAddi a0 a1 s
  | .andi a0 a1 => Sys2Proof.Machine.execAndi a0 a1 s
  | .ori a0 a1 => Sys2Proof.Machine.execOri a0 a1 s
  | .xori a0 a1 => Sys2Proof.Machine.execXori a0 a1 s
  | .cmpi a0 a1 => Sys2Proof.Machine.execCmpi a0 a1 s
  | .shk a0 a1 => Sys2Proof.Machine.execShk a0 a1 s
  | .seqPop a0 a1 => Sys2Proof.Machine.execSeqPop a0 a1 s
  | .seqPush a0 a1 => Sys2Proof.Machine.execSeqPush a0 a1 s
  | .cho a0 a1 => Sys2Proof.Machine.execCho a0 a1 s
  | .chi a0 a1 => Sys2Proof.Machine.execChi a0 a1 s
  | .sho a0 a1 => Sys2Proof.Machine.execSho a0 a1 s
  | .shi a0 a1 => Sys2Proof.Machine.execShi a0 a1 s
  | .br a0 a1 => Sys2Proof.Machine.execBr a0 a1 s
  | .seqCall a0 a1 => Sys2Proof.Machine.execSeqCall a0 a1 s
  | .seqRet a0 a1 => Sys2Proof.Machine.execSeqRet a0 a1 s
  | .djnz a0 a1 => Sys2Proof.Machine.execDjnz a0 a1 s
  | .seqPost a0 a1 => Sys2Proof.Machine.execSeqPost a0 a1 s
  | .evt a0 a1 => Sys2Proof.Machine.execEvt a0 a1 s
  | .crc a0 a1 => Sys2Proof.Machine.execCrc a0 a1 s
  | .fqw a0 a1 => Sys2Proof.Machine.execFqw a0 a1 s
  | .wtick a0 a1 => Sys2Proof.Machine.execWtick a0 a1 s
  | .clrf a0 a1 => Sys2Proof.Machine.execClrf a0 a1 s
  | .seqHalt a0 a1 => Sys2Proof.Machine.execSeqHalt a0 a1 s
  | .bankSupplyMismatch a0 => Sys2Proof.Machine.execBankSupplyMismatch a0 s
  | .damperRuleTrip a0 a1 => Sys2Proof.Machine.execDamperRuleTrip a0 a1 s
  | .ruleConditionFalse a0 => Sys2Proof.Machine.execRuleConditionFalse a0 s
  | .ruleArm a0 a1 a2 => Sys2Proof.Machine.execRuleArm a0 a1 a2 s
  | .ruleDisarm a0 a1 a2 => Sys2Proof.Machine.execRuleDisarm a0 a1 a2 s
  | .ruleWriteEffect a0 => Sys2Proof.Machine.execRuleWriteEffect a0 s
  | .ruleReleaseRequest a0 a1 => Sys2Proof.Machine.execRuleReleaseRequest a0 a1 s
  | .ruleReleaseEffect a0 => Sys2Proof.Machine.execRuleReleaseEffect a0 s
  | .damperLock a0 => Sys2Proof.Machine.execDamperLock a0 s
  | .ruleParityError a0 => Sys2Proof.Machine.execRuleParityError a0 s
  | .safeNAsserted => Sys2Proof.Machine.execSafeNAsserted s
  | .timebaseLoss => Sys2Proof.Machine.execTimebaseLoss s
  | .safeClear a0 a1 => Sys2Proof.Machine.execSafeClear a0 a1 s
  | .sramCorrectionWriteback a0 => Sys2Proof.Machine.execSramCorrectionWriteback a0 s
  | .scrubPatrol a0 a1 => Sys2Proof.Machine.execScrubPatrol a0 a1 s
  | .busErrorTimeout a0 => Sys2Proof.Machine.execBusErrorTimeout a0 s
  | .fabricLateAnswer a0 => Sys2Proof.Machine.execFabricLateAnswer a0 s
  | .gddr6RetrainStep a0 a1 => Sys2Proof.Machine.execGddr6RetrainStep a0 a1 s
  | .gddr6Refresh => Sys2Proof.Machine.execGddr6Refresh s
  | .draughtStart a0 a1 a2 => Sys2Proof.Machine.execDraughtStart a0 a1 a2 s
  | .draughtStop a0 a1 a2 => Sys2Proof.Machine.execDraughtStop a0 a1 a2 s
  | .draughtResume a0 a1 a2 => Sys2Proof.Machine.execDraughtResume a0 a1 a2 s
  | .draughtBind a0 a1 a2 a3 => Sys2Proof.Machine.execDraughtBind a0 a1 a2 a3 s
  | .descriptorFetch a0 a1 => Sys2Proof.Machine.execDescriptorFetch a0 a1 s
  | .burstReservation a0 a1 => Sys2Proof.Machine.execBurstReservation a0 a1 s
  | .burstComplete a0 a1 => Sys2Proof.Machine.execBurstComplete a0 a1 s
  | .laneModeWrite a0 a1 a2 => Sys2Proof.Machine.execLaneModeWrite a0 a1 a2 s
  | .qdRateWrite a0 a1 a2 => Sys2Proof.Machine.execQdRateWrite a0 a1 a2 s
  | .laneOwnerRequest a0 a1 a2 => Sys2Proof.Machine.execLaneOwnerRequest a0 a1 a2 s
  | .laneFrameReceived a0 a1 => Sys2Proof.Machine.execLaneFrameReceived a0 a1 s
  | .laneFrameTransmitStart a0 => Sys2Proof.Machine.execLaneFrameTransmitStart a0 s
  | .laneFrameTransmitEnd a0 a1 a2 => Sys2Proof.Machine.execLaneFrameTransmitEnd a0 a1 a2 s
  | .laneLinkChange a0 a1 => Sys2Proof.Machine.execLaneLinkChange a0 a1 s
  | .laneAnComplete a0 a1 a2 => Sys2Proof.Machine.execLaneAnComplete a0 a1 a2 s
  | .laneStatusArm a0 a1 a2 => Sys2Proof.Machine.execLaneStatusArm a0 a1 a2 s
  | .pcieReadRequest a0 a1 a2 => Sys2Proof.Machine.execPcieReadRequest a0 a1 a2 s
  | .pcieWriteRequest a0 a1 a2 => Sys2Proof.Machine.execPcieWriteRequest a0 a1 a2 s
  | .pcieUnsupportedRequest => Sys2Proof.Machine.execPcieUnsupportedRequest s
  | .functionLevelReset => Sys2Proof.Machine.execFunctionLevelReset s
  | .bulkLinkDown => Sys2Proof.Machine.execBulkLinkDown s
  | .bulkRetrain a0 a1 => Sys2Proof.Machine.execBulkRetrain a0 a1 s
  | .fluePortEnable a0 a1 a2 => Sys2Proof.Machine.execFluePortEnable a0 a1 a2 s
  | .flueBringupComplete a0 a1 a2 a3 => Sys2Proof.Machine.execFlueBringupComplete a0 a1 a2 a3 s
  | .flueBringupTimeout a0 => Sys2Proof.Machine.execFlueBringupTimeout a0 s
  | .flueRetrain a0 a1 => Sys2Proof.Machine.execFlueRetrain a0 a1 s
  | .flueRestore a0 a1 => Sys2Proof.Machine.execFlueRestore a0 a1 s
  | .devnumWrite a0 a1 => Sys2Proof.Machine.execDevnumWrite a0 a1 s
  | .rdreq a0 a1 => Sys2Proof.Machine.execRdreq a0 a1 s
  | .wrreq a0 a1 => Sys2Proof.Machine.execWrreq a0 a1 s
  | .atreq a0 a1 => Sys2Proof.Machine.execAtreq a0 a1 s
  | .opreq a0 a1 => Sys2Proof.Machine.execOpreq a0 a1 s
  | .rdcpl a0 a1 => Sys2Proof.Machine.execRdcpl a0 a1 s
  | .wrcpl a0 a1 => Sys2Proof.Machine.execWrcpl a0 a1 s
  | .atcpl a0 a1 => Sys2Proof.Machine.execAtcpl a0 a1 s
  | .opcpl a0 a1 => Sys2Proof.Machine.execOpcpl a0 a1 s
  | .flueAck a0 a1 a2 a3 => Sys2Proof.Machine.execFlueAck a0 a1 a2 a3 s
  | .flueNak a0 a1 => Sys2Proof.Machine.execFlueNak a0 a1 s
  | .flueReplayTimeout a0 => Sys2Proof.Machine.execFlueReplayTimeout a0 s
  | .flueNeighbourHung a0 => Sys2Proof.Machine.execFlueNeighbourHung a0 s
  | .flueTimeExchange a0 a1 => Sys2Proof.Machine.execFlueTimeExchange a0 a1 s
  | .flueTimeBlock a0 a1 a2 a3 a4 => Sys2Proof.Machine.execFlueTimeBlock a0 a1 a2 a3 a4 s
  | .remoteOperationIssue a0 a1 a2 a3 a4 a5 => Sys2Proof.Machine.execRemoteOperationIssue a0 a1 a2 a3 a4 a5 s
  | .remoteOperationTimeout a0 => Sys2Proof.Machine.execRemoteOperationTimeout a0 s
  | .flueIsolate a0 a1 => Sys2Proof.Machine.execFlueIsolate a0 a1 s
  | .eventSourceEdge a0 a1 => Sys2Proof.Machine.execEventSourceEdge a0 a1 s
  | .eventSourceLevelChange a0 a1 a2 => Sys2Proof.Machine.execEventSourceLevelChange a0 a1 a2 s
  | .eventEvaluation a0 => Sys2Proof.Machine.execEventEvaluation a0 s
  | .eventClaimArrival a0 => Sys2Proof.Machine.execEventClaimArrival a0 s
  | .eventDoneArrival a0 => Sys2Proof.Machine.execEventDoneArrival a0 s
  | .evcPendClear a0 a1 a2 a3 => Sys2Proof.Machine.execEvcPendClear a0 a1 a2 a3 s
  | .evcSwset a0 a1 a2 => Sys2Proof.Machine.execEvcSwset a0 a1 a2 s
  | .evcSlotWrite a0 a1 a2 a3 a4 => Sys2Proof.Machine.execEvcSlotWrite a0 a1 a2 a3 a4 s
  | .orphanTimeout a0 a1 => Sys2Proof.Machine.execOrphanTimeout a0 a1 s
  | .hostEventEvaluation => Sys2Proof.Machine.execHostEventEvaluation s
  | .hevClaimRead a0 => Sys2Proof.Machine.execHevClaimRead a0 s
  | .hevDoneWrite a0 a1 => Sys2Proof.Machine.execHevDoneWrite a0 a1 s
  | .hevSwset a0 a1 => Sys2Proof.Machine.execHevSwset a0 a1 s
  | .hevPendClear a0 a1 a2 => Sys2Proof.Machine.execHevPendClear a0 a1 a2 s
  | .ibiAck => Sys2Proof.Machine.execIbiAck s
  | .ibiNack => Sys2Proof.Machine.execIbiNack s
  | .ibiRetryExpiry => Sys2Proof.Machine.execIbiRetryExpiry s
  | .winRead a0 a1 a2 => Sys2Proof.Machine.execWinRead a0 a1 a2 s
  | .winWrite a0 a1 a2 a3 => Sys2Proof.Machine.execWinWrite a0 a1 a2 a3 s
  | .winStatus a0 a1 a2 => Sys2Proof.Machine.execWinStatus a0 a1 a2 s
  | .winEventClaim a0 a1 a2 => Sys2Proof.Machine.execWinEventClaim a0 a1 a2 s
  | .winEventDone a0 a1 a2 => Sys2Proof.Machine.execWinEventDone a0 a1 a2 s
  | .winQuote a0 a1 a2 a3 => Sys2Proof.Machine.execWinQuote a0 a1 a2 a3 s
  | .winPing a0 a1 a2 => Sys2Proof.Machine.execWinPing a0 a1 a2 s
  | .windowRequestRejected a0 a1 a2 a3 a4 a5 a6 => Sys2Proof.Machine.execWindowRequestRejected a0 a1 a2 a3 a4 a5 a6 s
  | .responseRead => Sys2Proof.Machine.execResponseRead s
  | .enec a0 a1 => Sys2Proof.Machine.execEnec a0 a1 s
  | .disec a0 a1 => Sys2Proof.Machine.execDisec a0 a1 s
  | .rstdaa => Sys2Proof.Machine.execRstdaa s
  | .entdaa a0 => Sys2Proof.Machine.execEntdaa a0 s
  | .setdasa a0 a1 => Sys2Proof.Machine.execSetdasa a0 a1 s
  | .setnewda a0 => Sys2Proof.Machine.execSetnewda a0 s
  | .setmwl a0 => Sys2Proof.Machine.execSetmwl a0 s
  | .setmrl a0 => Sys2Proof.Machine.execSetmrl a0 s
  | .getmwl => Sys2Proof.Machine.execGetmwl s
  | .getmrl => Sys2Proof.Machine.execGetmrl s
  | .getpid => Sys2Proof.Machine.execGetpid s
  | .getbcr => Sys2Proof.Machine.execGetbcr s
  | .getdcr => Sys2Proof.Machine.execGetdcr s
  | .getstatus => Sys2Proof.Machine.execGetstatus s
  | .getcaps => Sys2Proof.Machine.execGetcaps s
  | .enthdr0 => Sys2Proof.Machine.execEnthdr0 s
  | .hdrExit => Sys2Proof.Machine.execHdrExit s
  | .rstact a0 a1 => Sys2Proof.Machine.execRstact a0 a1 s
  | .hotJoinRequest => Sys2Proof.Machine.execHotJoinRequest s
  | .wqEnable a0 a1 a2 => Sys2Proof.Machine.execWqEnable a0 a1 a2 s
  | .wqInitComplete a0 => Sys2Proof.Machine.execWqInitComplete a0 s
  | .wqDisable a0 a1 a2 => Sys2Proof.Machine.execWqDisable a0 a1 a2 s
  | .wqPoll a0 => Sys2Proof.Machine.execWqPoll a0 s
  | .wqPoke a0 a1 a2 => Sys2Proof.Machine.execWqPoke a0 a1 a2 s
  | .wqInval a0 a1 a2 => Sys2Proof.Machine.execWqInval a0 a1 a2 s
  | .wqEntryApply a0 => Sys2Proof.Machine.execWqEntryApply a0 s
  | .cqEnable a0 a1 a2 => Sys2Proof.Machine.execCqEnable a0 a1 a2 s
  | .cqPost a0 => Sys2Proof.Machine.execCqPost a0 s
  | .cqAck a0 a1 a2 => Sys2Proof.Machine.execCqAck a0 a1 a2 s
  | .cqModerationTimeout a0 => Sys2Proof.Machine.execCqModerationTimeout a0 s
  | .faultOccurrence a0 a1 a2 a3 => Sys2Proof.Machine.execFaultOccurrence a0 a1 a2 a3 s
  | .faultForce a0 a1 a2 => Sys2Proof.Machine.execFaultForce a0 a1 a2 s
  | .reactionTimerExpiry a0 a1 => Sys2Proof.Machine.execReactionTimerExpiry a0 a1 s
  | .faultAcknowledge a0 a1 a2 => Sys2Proof.Machine.execFaultAcknowledge a0 a1 a2 s
  | .classWindowClose a0 a1 => Sys2Proof.Machine.execClassWindowClose a0 a1 s
  | .faultPulseEnd => Sys2Proof.Machine.execFaultPulseEnd s
  | .faultMinNs0Write a0 a1 => Sys2Proof.Machine.execFaultMinNs0Write a0 a1 s
  | .faultMinNs1Write a0 a1 => Sys2Proof.Machine.execFaultMinNs1Write a0 a1 s
  | .unitResetRequest a0 a1 => Sys2Proof.Machine.execUnitResetRequest a0 a1 s
  | .unitResetEnd a0 a1 => Sys2Proof.Machine.execUnitResetEnd a0 a1 s
  | .resetShadowEnd a0 a1 => Sys2Proof.Machine.execResetShadowEnd a0 a1 s
  | .retirementReturn a0 a1 a2 => Sys2Proof.Machine.execRetirementReturn a0 a1 a2 s
  | .sootEntryWrite => Sys2Proof.Machine.execSootEntryWrite s
  | .sootLoad a0 a1 => Sys2Proof.Machine.execSootLoad a0 a1 s
  | .selfTestRequest a0 a1 => Sys2Proof.Machine.execSelfTestRequest a0 a1 s
  | .selfTestStep => Sys2Proof.Machine.execSelfTestStep s
  | .selfTestComplete a0 => Sys2Proof.Machine.execSelfTestComplete a0 s
  | .resetAssert => Sys2Proof.Machine.execResetAssert s
  | .resetRelease a0 a1 => Sys2Proof.Machine.execResetRelease a0 a1 s
  | .timebasePllLock => Sys2Proof.Machine.execTimebasePllLock s
  | .railUndervoltage => Sys2Proof.Machine.execRailUndervoltage s
  | .voltageMonitorSample a0 a1 => Sys2Proof.Machine.execVoltageMonitorSample a0 a1 s
  | .temperatureSample a0 => Sys2Proof.Machine.execTemperatureSample a0 s
  | .bootStageComplete a0 => Sys2Proof.Machine.execBootStageComplete a0 s
  | .bootRecordRead a0 => Sys2Proof.Machine.execBootRecordRead a0 s
  | .bootRestart a0 => Sys2Proof.Machine.execBootRestart a0 s
  | .bootPushMode a0 => Sys2Proof.Machine.execBootPushMode a0 s
  | .bootPushWord a0 a1 => Sys2Proof.Machine.execBootPushWord a0 a1 s
  | .emberDataRead a0 => Sys2Proof.Machine.execEmberDataRead a0 s
  | .emberDataWrite a0 a1 => Sys2Proof.Machine.execEmberDataWrite a0 a1 s
  | .mramWriteComplete => Sys2Proof.Machine.execMramWriteComplete s
  | .emberSupplyReturn => Sys2Proof.Machine.execEmberSupplyReturn s
  | .quoteStart a0 a1 => Sys2Proof.Machine.execQuoteStart a0 a1 s
  | .quoteDigestComplete => Sys2Proof.Machine.execQuoteDigestComplete s
  | .quoteSignComplete => Sys2Proof.Machine.execQuoteSignComplete s
  | .idcode => Sys2Proof.Machine.execIdcode s
  | .samplePreload a0 => Sys2Proof.Machine.execSamplePreload a0 s
  | .extest => Sys2Proof.Machine.execExtest s
  | .clamp => Sys2Proof.Machine.execClamp s
  | .highz => Sys2Proof.Machine.execHighz s
  | .fusekey a0 a1 => Sys2Proof.Machine.execFusekey a0 a1 s
  | .bypass a0 => Sys2Proof.Machine.execBypass a0 s
  | .tapReset => Sys2Proof.Machine.execTapReset s
  | .registerWrite a0 a1 a2 => Sys2Proof.Machine.execRegisterWrite a0 a1 a2 s
  | .schCurAdvWrite a0 a1 a2 => Sys2Proof.Machine.execSchCurAdvWrite a0 a1 a2 s
  | .illegalInstruction a0 => Sys2Proof.Machine.execIllegalInstruction a0 s
  | .safeNRelease => Sys2Proof.Machine.execSafeNRelease s
  | .railRecovery => Sys2Proof.Machine.execRailRecovery s
  | .quadPllLock a0 a1 => Sys2Proof.Machine.execQuadPllLock a0 a1 s
  | .laneLockChange a0 a1 => Sys2Proof.Machine.execLaneLockChange a0 a1 s
  | .bulkLinkUp a0 a1 => Sys2Proof.Machine.execBulkLinkUp a0 a1 s
  | .pcieConfigRequest a0 a1 a2 => Sys2Proof.Machine.execPcieConfigRequest a0 a1 a2 s
  | .flueLinkDown a0 => Sys2Proof.Machine.execFlueLinkDown a0 s
  | .fluePacketRejected a0 a1 => Sys2Proof.Machine.execFluePacketRejected a0 a1 s
  | .flueAckTimer a0 => Sys2Proof.Machine.execFlueAckTimer a0 s

end Sys2Proof.Machine
end

