-- ==== Sys2Proof/Machine/Encode.lean ====
section
/-! DEFINITION. The encodings the spec gives: of stoker instructions in bytes, both ways (R139 to R156), and of sequencer
microwords in words (R205). The decoder names the command whose issue the bytes are; whether an instruction is legal is
`opSig`'s and `illegal`'s matter. -/
namespace Sys2Proof.Machine
open Sys2Proof

/-! ### From bytes -/

/-- Bits [7:4] of a byte. -/
def hi4 (b : Byte) : BitVec 4 := b.extractLsb' 4 4
/-- Bits [3:0] of a byte. -/
def lo4 (b : Byte) : BitVec 4 := b.setWidth 4
/-- Two bytes, most significant first. -/
def word2 (a b : Byte) : Word := (a ++ b).setWidth 16
/-- Three bytes. -/
def word3 (a b c : Byte) : BitVec 24 := (a ++ b ++ c).setWidth 24
/-- Four bytes. -/
def word4 (a b c d : Byte) : W32 := (a ++ b ++ c ++ d).setWidth 32

/-- The EA of its bytes (R144). -/
def RawEA.toEA (e : RawEA) : Option EA :=
  let an : Areg := e.mode.setWidth 3
  match (e.mode.extractLsb' 4 4).toNat, e.ext with
  | 0, [] => some (.ind an)
  | 1, [] => some (.postInc an)
  | 2, [] => some (.preDec an)
  | 3, [d] => some (.disp8 an d)
  | 4, [a, b] => some (.disp16 an (word2 a b))
  | 5, [k] => some (.index an (hi4 k))
  | 6, [a, b, c, d] => some (.abs (word4 a b c d))
  | 7, [a, b] => some (.reg (word2 a b))
  | _, _ => none

/-- Row 0 and the branches of rows 1 and 2 (R147, R148). -/
def insControl (i : Iss) (o : Nat) (f : List Byte) : Option Instr :=
  match o, f with
  | 0x00, [] => some (.nop i)
  | 0x01, [] => some (.trap i)
  | 0x02, [] => some (.fence i)
  | 0x03, [b] => some (.wait i (bit b 1) (bit b 0))
  | 0x04, [] => some (.retc i)
  | 0x05, [] => some (.retd i)
  | 0x06, [] => some (.ret i)
  | 0x07, [] => some (.endl i)
  | 0x08, [a, b, c] => some (.call i (word3 a b c))
  | 0x09, [b] => some (.callReg i (hi4 b))
  | 0x0A, [a, b, c] => some (.jmp i (word3 a b c))
  | 0x0B, [b] => some (.jmpReg i (hi4 b))
  | 0x0C, [a, b, c, d] => some (.loop i (word2 a b) (word2 c d))
  | 0x0D, [k, a, b] => some (.loopd i (lo4 k) (word2 a b))
  | _, [d] => if o / 16 = 1 then some (.bcc i (BitVec.ofNat 4 o) (.d8 d)) else none
  | _, [a, b] => if o / 16 = 2 then some (.bcc i (BitVec.ofNat 4 o) (.d16 (word2 a b))) else none
  | _, _ => none

/-- Rows 3 to 5: the opcode's column, Dn and the source (R149, R150). -/
def insAlu (i : Iss) (c : Nat) (dn : Dreg) (s : AluSrc) : Option Instr :=
  match c with
  | 0x0 => some (.mov i dn s)
  | 0x1 => some (.add i dn s)
  | 0x2 => some (.adc i dn s)
  | 0x3 => some (.sub i dn s)
  | 0x4 => some (.sbc i dn s)
  | 0x5 => some (.cmp i dn s)
  | 0x6 => some (.and i dn s)
  | 0x7 => some (.or i dn s)
  | 0x8 => some (.xor i dn s)
  | 0x9 => some (.tst i dn s)
  | 0xC => some (.shl i dn s)
  | 0xD => some (.shr i dn s)
  | 0xE => some (.sar i dn s)
  | 0xF => some (.rol i dn s)
  | _ => none

/-- Rows 3 and 4. -/
def insRow34 (i : Iss) (o : Nat) (f : List Byte) : Option Instr :=
  match o / 16, f with
  | 3, [b] =>
    if o % 16 = 0xA then some (.neg i (hi4 b) (lo4 b))
    else if o % 16 = 0xB then some (.not i (hi4 b) (lo4 b))
    else insAlu i (o % 16) (hi4 b) (.reg (lo4 b))
  | 4, [b, x, y] => insAlu i (o % 16) (hi4 b) (.imm ((word2 x y).setWidth 32))
  | 4, [b, w, x, y, z] => insAlu i (o % 16) (hi4 b) (.imm (word4 w x y z))
  | _, _ => none

/-- Row 5. -/
def insRow5 (i : Iss) (o : Nat) (f : List Byte) (es : List RawEA) : Option Instr :=
  match f, es with
  | [b], [] =>
    (match o with
     | 0x5B => some (.push i (b.setWidth 6))
     | 0x5C => some (.pop i (b.setWidth 6))
     | _ => none)
  | [b], [r] =>
    r.toEA.bind fun e =>
      (match o with
       | 0x50 => some (.ld i (b.setWidth 6) e)
       | 0x59 => some (.st i e (b.setWidth 6))
       | 0x5A => some (.lea i (b.setWidth 3) e)
       | 0x5D => some (.lde i (b.extractLsb' 6 2) e)
       | 0x5E => some (.ste i e (b.extractLsb' 6 2))
       | _ => if 0x51 ≤ o && o ≤ 0x58 then insAlu i (o % 16) (hi4 b) (.mem e) else none)
  | _, _ => none

/-- Row 6. -/
def insRow6 (i : Iss) (o : Nat) (f : List Byte) (es : List RawEA) : Option Instr :=
  match o, f, es with
  | 0x60, [a, b], [] => some (.movx i (a.setWidth 6) (b.setWidth 6))
  | 0x61, [a, b, c], [] => some (.movxi i (a.setWidth 6) (word2 b c))
  | 0x62, [a, b, c], [] => some (.adda i (a.setWidth 3) (.imm (word2 b c)))
  | 0x63, [b], [] => some (.adda i (b.extractLsb' 4 3) (.reg (lo4 b)))
  | 0x64, [b], [] => some (.ext i (hi4 b))
  | 0x65, [b], [] => some (.swpb i (hi4 b))
  | 0x67, [], [x, y] => x.toEA.bind fun e => y.toEA.map fun d => .move i e d
  | _, _, _ => none

/-- Row 7 (R152). -/
def insRow7 (i : Iss) (o : Nat) (f : List Byte) : Option Instr :=
  match o, f with
  | 0x70, [b] => some (.mulu i (hi4 b) (lo4 b))
  | 0x71, [b] => some (.muls i (hi4 b) (lo4 b))
  | 0x72, [b] => some (.divu i (hi4 b) (lo4 b))
  | 0x73, [b] => some (.divs i (hi4 b) (lo4 b))
  | 0x74, [n, b] => some (.dadd i (b.extractLsb' 4 3) (b.setWidth 3) (n.setWidth 5))
  | 0x75, [n, b] => some (.dsub i (b.extractLsb' 4 3) (b.setWidth 3) (n.setWidth 5))
  | _, _ => none

/-- Rows 8 and 9 (R153). -/
def insFloat (i : Iss) (o : Nat) (f : List Byte) : Option Instr :=
  let b := f.headD 0
  let d : Ereg := b.extractLsb' 6 2
  let a : Ereg := b.extractLsb' 4 2
  let e : Ereg := b.extractLsb' 2 2
  let c : Ereg := b.setWidth 2
  match o, f with
  | 0x80, [_] => some (.fadd i d a e)
  | 0x81, [_] => some (.fsub i d a e)
  | 0x82, [_] => some (.fmul i d a e)
  | 0x83, [_] => some (.fma i d a e c)
  | 0x84, [_] => some (.fnma i d a e c)
  | 0x85, [_] => some (.fdiv i d a e)
  | 0x86, [_] => some (.fsqrt i d a)
  | 0x87, [_] => some (.fmin i d a e)
  | 0x88, [_] => some (.fmax i d a e)
  | 0x89, [_] => some (.fcmp i a e)
  | 0x8A, [_] => some (.fneg i d a)
  | 0x8B, [_] => some (.fabs i d a)
  | 0x8C, [_] => some (.fcvt i d a (lo4 b))
  | 0x8D, [_] => some (.fmov i d a)
  | 0x8E, [_] => some (.moved i (bit b 7) (b.extractLsb' 5 2) c)
  | 0x8F, [_, p, q, r, s, t, u, v, w] => some (.ldie i d ((word4 p q r s ++ word4 t u v w).setWidth 64))
  | 0x90, [_] => some (.eadd i d a e)
  | 0x91, [_] => some (.esub i d a e)
  | 0x92, [_] => some (.ecmp i a e)
  | 0x93, [_, n] => some (.eshl i d a (n.setWidth 6))
  | 0x94, [_, n] => some (.eshr i d a (n.setWidth 6))
  | 0x95, [_, n] => some (.esar i d a (n.setWidth 6))
  | 0x96, [_] => some (.movpe i d)
  | _, _ => none

/-- Rows A to D (R154 to R156). -/
def insRest (i : Iss) (o : Nat) (f : List Byte) (es : List RawEA) : Option Instr :=
  match o, f, es with
  | 0xA0, [b, x], [] => some (.fpop i (hi4 b) (lo4 b) (x.setWidth 2))
  | 0xA1, [b, x], [] => some (.fpush i (lo4 b) (x.setWidth 2) (hi4 b) (bit x 3) (bit x 2))
  | 0xA2, [b, x], [] => some (.fpops i (b.extractLsb' 4 3) (lo4 b) (x.setWidth 2))
  | 0xA3, [b, x], [] => some (.fpushs i (lo4 b) (x.setWidth 2) (b.extractLsb' 4 3) (bit x 3) (bit x 2))
  | 0xA4, [b, x], [] => some (.fire i (hi4 b) (x.extractLsb' 6 2) (x.extractLsb' 4 2))
  | 0xA5, [b, x], [] => some (.pinw i (hi4 b) (x.extractLsb' 4 2))
  | 0xA6, [b], [] => some (.pinr i (hi4 b) (lo4 b))
  | 0xA7, [b], [] => some (.pints i (b.extractLsb' 6 2) (lo4 b))
  | 0xB0, [b], [] => some (.fills i (b.extractLsb' 4 3) (lo4 b))
  | 0xB1, [b], [] => some (.scans i (b.extractLsb' 4 3) (lo4 b))
  | 0xC0, [b], [] => some (.bset i (hi4 b) (lo4 b))
  | 0xC1, [b], [] => some (.bclr i (hi4 b) (lo4 b))
  | 0xC2, [b], [] => some (.btst i (hi4 b) (lo4 b))
  | 0xC3, [b], [] => some (.bchg i (hi4 b) (lo4 b))
  | 0xC4, [b, x], [] => some (.bfx i (hi4 b) (lo4 b) (hi4 x) (lo4 x))
  | 0xC5, [b, x], [] => some (.bfi i (hi4 b) (lo4 b) (hi4 x) (lo4 x))
  | 0xD0, [b], [r] => r.toEA.map fun e => .xchg i (hi4 b) e
  | 0xD1, [b], [r] => r.toEA.map fun e => .addm i e (hi4 b)
  | 0xD2, [b], [r] => r.toEA.map fun e => .andm i e (hi4 b)
  | 0xD3, [b], [r] => r.toEA.map fun e => .orm i e (hi4 b)
  | 0xD4, [b], [r] => r.toEA.map fun e => .cas i e (hi4 b) (lo4 b)
  | _, _, _ => none

/-- The command whose issue an opcode with its prefixes, operand bytes and EAs is (R146). -/
def insOf (i : Iss) (o : Nat) (f : List Byte) (es : List RawEA) : Option Instr :=
  match o / 16 with
  | 0x0 | 0x1 | 0x2 => insControl i o f
  | 0x3 | 0x4 => insRow34 i o f
  | 0x5 => insRow5 i o f es
  | 0x6 => insRow6 i o f es
  | 0x7 => insRow7 i o f
  | 0x8 | 0x9 => insFloat i o f
  | _ => insRest i o f es

/-- The command whose issue the bytes of one whole instruction are, for a context's subchannel. -/
def decodeIns (sub : Sub) (bs : List Byte) : Option Instr :=
  match decodeBytes sub bs with
  | .done i _ o f es => insOf i o f es
  | _ => none

/-! ### To bytes -/

/-- The prefixes of an instruction, in a fixed order (R140). -/
def encPrefix (i : Iss) : List Byte :=
  (match i.rep with | .none => [] | .rep n => [0xE0, n] | .repd k => [0xE1, k.setWidth 8]) ++
  (if i.wide then [0xE2] else []) ++ (if i.dbl then [0xE3] else []) ++
  (match i.bank with | none => [] | some k => [0xE4 + k.setWidth 8]) ++
  (if i.noflag then [0xE8] else []) ++ (if i.atom then [0xE9] else [])

/-- Two 4-bit fields. -/
def byteHL (h l : BitVec 4) : Byte := (h ++ l).setWidth 8
/-- A 3-bit field at [6:4] and a 4-bit field. -/
def byteAL (a : BitVec 3) (l : BitVec 4) : Byte := (a ++ l).setWidth 8
/-- Four 2-bit fields. -/
def byteE (d a b c : BitVec 2) : Byte := (d ++ a ++ b ++ c).setWidth 8
/-- The bytes of a word, most significant first. -/
def enc2 (w : Word) : List Byte := [w.extractLsb' 8 8, w.setWidth 8]
/-- The bytes of a 24-bit value. -/
def enc3 (w : BitVec 24) : List Byte := [w.extractLsb' 16 8, w.extractLsb' 8 8, w.setWidth 8]
/-- The bytes of a 32-bit value. -/
def enc4 (w : W32) : List Byte := [w.extractLsb' 24 8, w.extractLsb' 16 8, w.extractLsb' 8 8, w.setWidth 8]

/-- An EA's bytes (R144). -/
def encEA : EA → List Byte
  | .ind a => [byteHL 0 (a.setWidth 4)]
  | .postInc a => [byteHL 1 (a.setWidth 4)]
  | .preDec a => [byteHL 2 (a.setWidth 4)]
  | .disp8 a d => [byteHL 3 (a.setWidth 4), d]
  | .disp16 a d => byteHL 4 (a.setWidth 4) :: enc2 d
  | .index a k => [byteHL 5 (a.setWidth 4), byteHL k 0]
  | .abs x => 0x60 :: enc4 x
  | .reg d => 0x70 :: enc2 d

/-- A row 3 to 5 operation in column c (R149, R150). -/
def encAlu (i : Iss) (c : Byte) (dn : Dreg) : AluSrc → List Byte
  | .reg dm => [0x30 + c, byteHL dn dm]
  | .imm v => [0x40 + c, byteHL dn 0] ++ (if i.wide then enc4 v else enc2 (v.setWidth 16))
  | .mem e => [0x50 + c, byteHL dn 0] ++ encEA e

/-- A branch (R147, R148). -/
def encBranch (cc : BitVec 4) : BrDisp → List Byte
  | .d8 d => [byteHL 1 cc, d]
  | .d16 d => byteHL 2 cc :: enc2 d

/-- Opcode and operand bytes; none where the command is no stoker instruction. -/
def encBody : Instr → Option (Iss × List Byte)
  | .nop i => some (i, [0x00])
  | .trap i => some (i, [0x01])
  | .fence i => some (i, [0x02])
  | .wait i tk ev => some (i, [0x03, (BitVec.ofBool tk ++ BitVec.ofBool ev).setWidth 8])
  | .retc i => some (i, [0x04])
  | .retd i => some (i, [0x05])
  | .ret i => some (i, [0x06])
  | .endl i => some (i, [0x07])
  | .call i rel => some (i, 0x08 :: enc3 rel)
  | .callReg i dn => some (i, [0x09, byteHL dn 0])
  | .jmp i rel => some (i, 0x0A :: enc3 rel)
  | .jmpReg i dn => some (i, [0x0B, byteHL dn 0])
  | .loop i n len => some (i, 0x0C :: (enc2 n ++ enc2 len))
  | .loopd i dk len => some (i, [0x0D, byteHL 0 dk] ++ enc2 len)
  | .bcc i cc d => some (i, encBranch cc d)
  | .mov i dn s => some (i, encAlu i 0x0 dn s)
  | .add i dn s => some (i, encAlu i 0x1 dn s)
  | .adc i dn s => some (i, encAlu i 0x2 dn s)
  | .sub i dn s => some (i, encAlu i 0x3 dn s)
  | .sbc i dn s => some (i, encAlu i 0x4 dn s)
  | .cmp i dn s => some (i, encAlu i 0x5 dn s)
  | .and i dn s => some (i, encAlu i 0x6 dn s)
  | .or i dn s => some (i, encAlu i 0x7 dn s)
  | .xor i dn s => some (i, encAlu i 0x8 dn s)
  | .tst i dn s => some (i, encAlu i 0x9 dn s)
  | .neg i dn dm => some (i, [0x3A, byteHL dn dm])
  | .not i dn dm => some (i, [0x3B, byteHL dn dm])
  | .shl i dn s => some (i, encAlu i 0xC dn s)
  | .shr i dn s => some (i, encAlu i 0xD dn s)
  | .sar i dn s => some (i, encAlu i 0xE dn s)
  | .rol i dn s => some (i, encAlu i 0xF dn s)
  | .ld i x e => some (i, [0x50, x.setWidth 8] ++ encEA e)
  | .st i e x => some (i, [0x59, x.setWidth 8] ++ encEA e)
  | .lea i a e => some (i, [0x5A, a.setWidth 8] ++ encEA e)
  | .push i x => some (i, [0x5B, x.setWidth 8])
  | .pop i x => some (i, [0x5C, x.setWidth 8])
  | .lde i k e => some (i, [0x5D, byteE k 0 0 0] ++ encEA e)
  | .ste i e k => some (i, [0x5E, byteE k 0 0 0] ++ encEA e)
  | .movx i d s => some (i, [0x60, d.setWidth 8, s.setWidth 8])
  | .movxi i d v => some (i, [0x61, d.setWidth 8] ++ enc2 v)
  | .adda i a (.imm v) => some (i, [0x62, a.setWidth 8] ++ enc2 v)
  | .adda i a (.reg m) => some (i, [0x63, byteAL a m])
  | .ext i dn => some (i, [0x64, byteHL dn 0])
  | .swpb i dn => some (i, [0x65, byteHL dn 0])
  | .move i e d => some (i, 0x67 :: (encEA e ++ encEA d))
  | .mulu i dn dm => some (i, [0x70, byteHL dn dm])
  | .muls i dn dm => some (i, [0x71, byteHL dn dm])
  | .divu i dn dm => some (i, [0x72, byteHL dn dm])
  | .divs i dn dm => some (i, [0x73, byteHL dn dm])
  | .dadd i an am n => some (i, [0x74, n.setWidth 8, byteAL an (am.setWidth 4)])
  | .dsub i an am n => some (i, [0x75, n.setWidth 8, byteAL an (am.setWidth 4)])
  | .fadd i d a b => some (i, [0x80, byteE d a b 0])
  | .fsub i d a b => some (i, [0x81, byteE d a b 0])
  | .fmul i d a b => some (i, [0x82, byteE d a b 0])
  | .fma i d a b c => some (i, [0x83, byteE d a b c])
  | .fnma i d a b c => some (i, [0x84, byteE d a b c])
  | .fdiv i d a b => some (i, [0x85, byteE d a b 0])
  | .fsqrt i d a => some (i, [0x86, byteE d a 0 0])
  | .fmin i d a b => some (i, [0x87, byteE d a b 0])
  | .fmax i d a b => some (i, [0x88, byteE d a b 0])
  | .fcmp i a b => some (i, [0x89, byteE 0 a b 0])
  | .fneg i d a => some (i, [0x8A, byteE d a 0 0])
  | .fabs i d a => some (i, [0x8B, byteE d a 0 0])
  | .fcvt i d a k => some (i, [0x8C, byteHL ((d ++ a).setWidth 4) k])
  | .fmov i d a => some (i, [0x8D, byteE d a 0 0])
  | .moved i dir k g => some (i, [0x8E, (BitVec.ofBool dir ++ k ++ (0 : BitVec 3) ++ g).setWidth 8])
  | .ldie i k v => some (i, [0x8F, byteE k 0 0 0] ++ enc4 (v.extractLsb' 32 32) ++ enc4 (v.setWidth 32))
  | .eadd i d a b => some (i, [0x90, byteE d a b 0])
  | .esub i d a b => some (i, [0x91, byteE d a b 0])
  | .ecmp i a b => some (i, [0x92, byteE 0 a b 0])
  | .eshl i d a n => some (i, [0x93, byteE d a 0 0, n.setWidth 8])
  | .eshr i d a n => some (i, [0x94, byteE d a 0 0, n.setWidth 8])
  | .esar i d a n => some (i, [0x95, byteE d a 0 0, n.setWidth 8])
  | .movpe i k => some (i, [0x96, byteE k 0 0 0])
  | .fpop i dn dg f => some (i, [0xA0, byteHL dn dg, f.setWidth 8])
  | .fpush i dg f dn eop odd => some (i, [0xA1, byteHL dn dg, (BitVec.ofBool eop ++ BitVec.ofBool odd ++ f).setWidth 8])
  | .fpops i an dg f => some (i, [0xA2, byteAL an dg, f.setWidth 8])
  | .fpushs i dg f an eop odd => some (i, [0xA3, byteAL an dg, (BitVec.ofBool eop ++ BitVec.ofBool odd ++ f).setWidth 8])
  | .fire i dp k act => some (i, [0xA4, byteHL dp 0, byteE k act 0 0])
  | .pinw i dp act => some (i, [0xA5, byteHL dp 0, byteE 0 act 0 0])
  | .pinr i dn dp => some (i, [0xA6, byteHL dn dp])
  | .pints i k dp => some (i, [0xA7, byteHL ((k ++ (0 : BitVec 2)).setWidth 4) dp])
  | .fills i an dk => some (i, [0xB0, byteAL an dk])
  | .scans i an dk => some (i, [0xB1, byteAL an dk])
  | .bset i dn b => some (i, [0xC0, byteHL dn b])
  | .bclr i dn b => some (i, [0xC1, byteHL dn b])
  | .btst i dn b => some (i, [0xC2, byteHL dn b])
  | .bchg i dn b => some (i, [0xC3, byteHL dn b])
  | .bfx i dn dm p w => some (i, [0xC4, byteHL dn dm, byteHL p w])
  | .bfi i dn dm p w => some (i, [0xC5, byteHL dn dm, byteHL p w])
  | .xchg i dn e => some (i, [0xD0, byteHL dn 0] ++ encEA e)
  | .addm i e dn => some (i, [0xD1, byteHL dn 0] ++ encEA e)
  | .andm i e dn => some (i, [0xD2, byteHL dn 0] ++ encEA e)
  | .orm i e dn => some (i, [0xD3, byteHL dn 0] ++ encEA e)
  | .cas i e dn dm => some (i, [0xD4, byteHL dn dm] ++ encEA e)
  | _ => none

/-- The bytes of a stoker instruction with its prefixes, and the context's subchannel. -/
def encodeIns (c : Instr) : Option (Sub × List Byte) :=
  (encBody c).map fun x => (x.1.sub, encPrefix x.1 ++ x.2)

/-! ### Microwords -/

/-- The fields of a microword's 48 bits, parity good. -/
def microFields (w : BitVec 48) : Micro :=
  { p := w.extractLsb' 38 4, ka := w.extractLsb' 35 3, kb := w.extractLsb' 32 3, cc := w.extractLsb' 28 4
    s := w.extractLsb' 24 4, t := w.extractLsb' 16 8, imm := w.extractLsb' 0 16 }

/-- The command of a microoperation (R206); none where OP is reserved. -/
def insMicro (g : GrateNo) (op : Nat) (u : Micro) : Option Instr :=
  match op with
  | 0x00 => some (.seqNop g u)
  | 0x01 => some (.drv g u)
  | 0x02 => some (.drvm g u)
  | 0x03 => some (.oem g u)
  | 0x04 => some (.smp g u)
  | 0x05 => some (.seqWait g u)
  | 0x06 => some (.wedge g u)
  | 0x07 => some (.wlvl g u)
  | 0x08 => some (.ldi g u)
  | 0x09 => some (.seqMov g u)
  | 0x0A => some (.addi g u)
  | 0x0B => some (.andi g u)
  | 0x0C => some (.ori g u)
  | 0x0D => some (.xori g u)
  | 0x0E => some (.cmpi g u)
  | 0x0F => some (.shk g u)
  | 0x10 => some (.seqPop g u)
  | 0x11 => some (.seqPush g u)
  | 0x12 => some (.cho g u)
  | 0x13 => some (.chi g u)
  | 0x14 => some (.sho g u)
  | 0x15 => some (.shi g u)
  | 0x16 => some (.br g u)
  | 0x17 => some (.seqCall g u)
  | 0x18 => some (.seqRet g u)
  | 0x19 => some (.djnz g u)
  | 0x1A => some (.seqPost g u)
  | 0x1B => some (.evt g u)
  | 0x1C => some (.crc g u)
  | 0x1D => some (.fqw g u)
  | 0x1E => some (.wtick g u)
  | 0x1F => some (.clrf g u)
  | 0x20 => some (.seqHalt g u)
  | _ => none

/-- The command whose microword these 48 bits are. -/
def decodeMicro (g : GrateNo) (w : BitVec 48) : Option Instr := insMicro g (w.extractLsb' 42 6).toNat (microFields w)

/-- The grate and the 48 bits of a microoperation; none where the command is another. -/
def encodeMicro : Instr → Option (GrateNo × BitVec 48)
  | .seqNop g u => some (g, microBits 0x00 u)
  | .drv g u => some (g, microBits 0x01 u)
  | .drvm g u => some (g, microBits 0x02 u)
  | .oem g u => some (g, microBits 0x03 u)
  | .smp g u => some (g, microBits 0x04 u)
  | .seqWait g u => some (g, microBits 0x05 u)
  | .wedge g u => some (g, microBits 0x06 u)
  | .wlvl g u => some (g, microBits 0x07 u)
  | .ldi g u => some (g, microBits 0x08 u)
  | .seqMov g u => some (g, microBits 0x09 u)
  | .addi g u => some (g, microBits 0x0A u)
  | .andi g u => some (g, microBits 0x0B u)
  | .ori g u => some (g, microBits 0x0C u)
  | .xori g u => some (g, microBits 0x0D u)
  | .cmpi g u => some (g, microBits 0x0E u)
  | .shk g u => some (g, microBits 0x0F u)
  | .seqPop g u => some (g, microBits 0x10 u)
  | .seqPush g u => some (g, microBits 0x11 u)
  | .cho g u => some (g, microBits 0x12 u)
  | .chi g u => some (g, microBits 0x13 u)
  | .sho g u => some (g, microBits 0x14 u)
  | .shi g u => some (g, microBits 0x15 u)
  | .br g u => some (g, microBits 0x16 u)
  | .seqCall g u => some (g, microBits 0x17 u)
  | .seqRet g u => some (g, microBits 0x18 u)
  | .djnz g u => some (g, microBits 0x19 u)
  | .seqPost g u => some (g, microBits 0x1A u)
  | .evt g u => some (g, microBits 0x1B u)
  | .crc g u => some (g, microBits 0x1C u)
  | .fqw g u => some (g, microBits 0x1D u)
  | .wtick g u => some (g, microBits 0x1E u)
  | .clrf g u => some (g, microBits 0x1F u)
  | .seqHalt g u => some (g, microBits 0x20 u)
  | _ => none

end Sys2Proof.Machine
end

