-- ==== Sys2Proof/WellFormed.lean ====
section
/-! DEFINITION. Well-formed commands: the checks that the operand types do not make. A command that is not well formed is one
that no encoding of the spec spells (an operand form the opcode does not have) or that no port of the device can carry. -/
namespace Sys2Proof

/-- A source of rows 3 to 5 for opcodes with all three rows (R149): an immediate fits the operation's width. -/
def AluSrc.wf (wide : Bool) : AluSrc → Bool
  | .imm v => wide || decide (v.toNat < 65536)
  | .reg _ => true
  | .mem _ => true

/-- A source of an opcode that row 5 does not hold (R146): MOV, TST and the shifts take no memory operand. -/
def AluSrc.wfNoMem (wide : Bool) : AluSrc → Bool
  | .mem _ => false
  | x => x.wf wide

/-- A packet's payload is LEN blocks of 4 words (R274). -/
def Packet.wf (k : Packet) : Bool := k.payload.length == 4 * k.len.toNat

/-- TAP codes that name an instruction other than BYPASS (R382). -/
def tapNamed (code : Byte) : Bool := [0x01, 0x02, 0x03, 0x04, 0x05, 0x20].contains code

/-- The command is well formed. -/
def Instr.wf : Instr → Bool
  | .mov i _ s => s.wfNoMem i.wide
  | .tst i _ s => s.wfNoMem i.wide
  | .shl i _ s => s.wfNoMem i.wide
  | .shr i _ s => s.wfNoMem i.wide
  | .sar i _ s => s.wfNoMem i.wide
  | .rol i _ s => s.wfNoMem i.wide
  | .add i _ s => s.wf i.wide
  | .adc i _ s => s.wf i.wide
  | .sub i _ s => s.wf i.wide
  | .sbc i _ s => s.wf i.wide
  | .cmp i _ s => s.wf i.wide
  | .and i _ s => s.wf i.wide
  | .or i _ s => s.wf i.wide
  | .xor i _ s => s.wf i.wide
  -- condition 0xF is an undefined opcode (R148)
  | .bcc _ cc _ => cc != 0xF
  | .rdreq _ k => k.wf
  | .wrreq _ k => k.wf
  | .atreq _ k => k.wf
  | .opreq _ k => k.wf
  | .rdcpl _ k => k.wf
  | .wrcpl _ k => k.wf
  | .atcpl _ k => k.wf
  | .opcpl _ k => k.wf
  -- three BARs; a request moves at least one word (R268)
  | .pcieReadRequest bar _ n => decide (bar.toNat ≤ 2) && n != 0
  | .pcieWriteRequest bar _ data => decide (bar.toNat ≤ 2) && !data.isEmpty
  -- seven rails and sixteen bank supplies, eight sensors (R383, R384)
  | .voltageMonitorSample mv vio => mv.length == 7 && vio.length == 16
  | .temperatureSample ts => ts.length == 8
  -- scopes stoker, firebox, hearth and stove die (R341)
  | .unitResetEnd scope _ => decide (1 ≤ scope.toNat) && decide (scope.toNat ≤ 4)
  | .resetShadowEnd scope _ => decide (1 ≤ scope.toNat) && decide (scope.toNat ≤ 4)
  | .bypass code => !tapNamed code
  | _ => true

end Sys2Proof
end

