-- ==== Sys2Proof/Safety.lean ====
section
/-! DEFINITION. Safe runs and the conditions and results in whose terms claims are stated. -/
namespace Sys2Proof.Machine
open Sys2Proof

/-- Every command that waits is well formed. -/
def QueueWf (s : State) : Prop := s.pending.all Instr.wf = true

/-- A step does not stop. -/
def Goes (s : State) : Prop := ∃ t, step s = .next t

/-- What a command leaves whose own effect is u: the device works off all that u entails (R81, R111, R330), and the queue of
waiting commands is as it was. -/
def done (s u : State) : State := { afterwards u with pending := s.pending }

/-- The device owes nothing, and no context waits for something that has come: what a command's own effect leaves stands. -/
def Settled (u : State) : Prop := u.due = [] ∧ ∀ kc ∈ u.ctx, stallOver kc.1 kc.2 u = false

/-! ### Stoker instructions -/

/-- An instruction without prefixes. -/
def bare (sub : Sub) : Iss := { sub := sub }

/-- The context runs a procedure entry of its committed program and is between instructions, with no loop, no repetition,
no debug step, no posted store and nothing in flight. -/
def ready (sub : Sub) (s : State) : Bool :=
  let c := ctx sub.toNat s
  up s && mayIssue sub.toNat s && (specOf sub.toNat s).isNone && c.rep.isNone && c.loops.isEmpty && !c.step1 && c.got.isEmpty &&
    c.posted.isEmpty && c.drain.isEmpty && c.div.isNone && c.prods.isEmpty && c.fops.isEmpty && c.pushes.isEmpty &&
    (s.loads.find? fun kv => kv.1 == sub.toNat).isNone

/-- An instruction of n bytes has completed: the context is c with the PC at the next instruction, and INSTR_CNT counts
it. -/
def ran (sub : Sub) (n : Nat) (c : Ctx) (s : State) : State :=
  count (bStk (stkOf sub.toNat)) 8
    (modCtx sub.toNat (fun _ => { c with pc := (ctx sub.toNat s).pc + BitVec.ofNat 24 n }) s)

/-- The same with the PC where a transfer goes. -/
def ranTo (sub : Sub) (target : Nat) (c : Ctx) (s : State) : State :=
  count (bStk (stkOf sub.toNat)) 8 (modCtx sub.toNat (fun _ => { c with pc := BitVec.ofNat 24 target }) s)

/-- The context with a result's value in Dn (a pair under WIDE) and its flags in FLAGS, unless NOFLAG. -/
def withAlu (i : Iss) (dn : Dreg) (r : Alu) (c : Ctx) : Ctx :=
  let c1 := setDw i.wide dn.toNat r.res c
  if i.noflag then c1 else setF (putFlags (getF c1) r) c1

/-- The context with a result's flags alone. -/
def withFlags (i : Iss) (r : Alu) (c : Ctx) : Ctx := if i.noflag then c else setF (putFlags (getF c) r) c

/-- A source of rows 3 and 4, as a number. -/
def srcVal (i : Iss) (src : AluSrc) (c : Ctx) : Nat :=
  match src with
  | .reg m => getDw i.wide m.toNat c
  | .imm v => v.toNat % 2 ^ widthBits i
  | .mem _ => 0

/-! ### Memory operands -/

/-- The word addresses a context uses are memory words, by key. -/
def placesAt (sub : Sub) (as ks : List Nat) (s : State) : Prop :=
  as.map (fun a => subPlace sub.toNat a s) = ks.map Place.mem

/-- The words that memory holds at these keys; none has a stored error. -/
def wordsAt (ks : List Nat) (ws : List Word) (s : State) : Prop :=
  ks.map (fun k => memWord k s) = ws.map some ∧ ∀ k ∈ ks, mget 0 k s.marks = 0

/-- The words that the context's loads find at these keys, in the data prefetch buffer or in memory (R89); none has a stored
error. -/
def loadsAt (sub : Sub) (ks : List Nat) (ws : List Word) (s : State) : Prop :=
  ks.map (fun k => (prefetched sub.toNat k s).or (memWord k s)) = ws.map some ∧ ∀ k ∈ ks, mget 0 k s.marks = 0

/-- An instruction of n bytes that loads from memory has issued: the context is c at the next instruction, but awaits the
data; memory is as it was; and the context before it is kept for a load that fails (R122, R133). -/
def awaits (sub : Sub) (n : Nat) (c : Ctx) (s u : State) : Prop :=
  let d := ctx sub.toNat u
  { d with run := .running, stall := .none } =
      { c with pc := (ctx sub.toNat s).pc + BitVec.ofNat 24 n, run := .running, stall := .none } ∧
    d.stall = .load ∧ (d.run = .stalled ∨ d.run = .longstall) ∧ u.mem = s.mem ∧ u.marks = s.marks ∧
    ∃ e, (u.loads.find? fun kv => kv.1 == sub.toNat) = some (sub.toNat, e) ∧ e.before = ctx sub.toNat s

/-- A store of words at these keys, by the context's instruction in s, joins the posted stores of c (R124, R125). -/
def posting (sub : Sub) (ks : List Nat) (ws : List Word) (c : Ctx) (s : State) : Ctx :=
  { c with posted := c.posted ++
      [{ addr := ks, words := ws, pc := (ctx sub.toNat s).pc, seq := (stk (stkOf sub.toNat) s).issued }] }

/-- The context's stoker has issued one store more (R125). -/
def storeIssued (sub : Sub) (s : State) : State := modStk (stkOf sub.toNat) (fun x => { x with issued := x.issued + 1 }) s

/-- Flags of a popped word: Z, N, then C its end-of-packet tag and V its odd-byte tag (R154). -/
def popAlu (w : FWord) : Alu := zn 16 w.w.toNat (some w.eop) (some w.odd)

/-! ### Sequencers -/

/-- The sequencer of a grate reaches this microword, which its store holds at the next address with good parity (R205). -/
def reaches (g : GrateNo) (op : BitVec 6) (u : Micro) (s : State) : Bool :=
  up s && (grate g.toNat s).run && (grate g.toNat s).hold.isNone && u.parityOk &&
    microAt g.toNat (grate g.toNat s).npc s == microBits op u

/-- The microoperations: each with its OP, the fields that its microword names, and whether its values are not reserved
(R206). -/
def microTable : List ((GrateNo → Micro → Instr) × BitVec 6 × (Micro → Names) × (Micro → Bool)) :=
  [(.seqNop, 0x00, fun _ => { p := 0 }, fun _ => true),
   (.drv, 0x01, fun u => { p := if bit u.imm 4 then 3 else 15, imm := 0x13 }, fun u => fld u.imm 1 0 != 3),
   (.drvm, 0x02, fun _ => { ka := true, imm := 0xFFFF }, fun _ => true),
   (.oem, 0x03, fun _ => { ka := true, imm := 0xFFFF }, fun _ => true),
   (.smp, 0x04, fun _ => { ka := true }, fun _ => true),
   (.seqWait, 0x05, fun _ => { s := true, imm := 0xFFFF }, fun u => u.imm != 0),
   (.wedge, 0x06, fun _ => { p := 15, kb := true, s := true, imm := 0xFFFF }, fun u => u.kb.toNat < 3),
   (.wlvl, 0x07, fun _ => { ka := true, kb := true, s := true, imm := 0xFFFF }, fun _ => true)] ++
  [(.ldi, 0x08, fun _ => { ka := true, imm := 0xFFFF }, fun _ => true),
   (.seqMov, 0x09, fun _ => { ka := true, kb := true }, fun _ => true),
   (.addi, 0x0A, fun _ => { ka := true, imm := 0xFFFF }, fun _ => true),
   (.andi, 0x0B, fun _ => { ka := true, imm := 0xFFFF }, fun _ => true),
   (.ori, 0x0C, fun _ => { ka := true, imm := 0xFFFF }, fun _ => true),
   (.xori, 0x0D, fun _ => { ka := true, imm := 0xFFFF }, fun _ => true),
   (.cmpi, 0x0E, fun _ => { ka := true, imm := 0xFFFF }, fun _ => true),
   (.shk, 0x0F, fun _ => { ka := true, imm := 0x800F }, fun _ => true)] ++
  [(.seqPop, 0x10, fun _ => { p := 3, ka := true, imm := 1 }, fun _ => true),
   (.seqPush, 0x11, fun _ => { p := 3, ka := true, imm := 3 }, fun _ => true),
   (.cho, 0x12, fun _ => { p := 15, ka := true, imm := 1 }, fun _ => true),
   (.chi, 0x13, fun _ => { p := 15, ka := true, s := true, imm := 0xFFFF }, fun _ => true),
   (.sho, 0x14, fun _ => { p := 15, ka := true, imm := 0xF }, fun _ => true),
   (.shi, 0x15, fun _ => { p := 15, ka := true, imm := 0xF }, fun _ => true)] ++
  [(.br, 0x16, brNames, fun u => u.cc != 15),
   (.seqCall, 0x17, brNames, fun u => u.cc != 15),
   (.seqRet, 0x18, fun _ => { p := 0 }, fun _ => true),
   (.djnz, 0x19, fun _ => { ka := true, t := true }, fun _ => true),
   (.seqPost, 0x1A, fun _ => { ka := true, imm := 0x1FF }, fun _ => true),
   (.evt, 0x1B, fun _ => { imm := 3 }, fun _ => true),
   (.crc, 0x1C, fun _ => { ka := true, imm := 3 }, fun u => fld u.imm 1 0 != 3),
   (.fqw, 0x1D, fun _ => { p := 15, ka := true, imm := 3 }, fun u => fld u.imm 1 0 != 3),
   (.wtick, 0x1E, fun _ => { p := 0 }, fun _ => true),
   (.clrf, 0x1F, fun _ => { imm := 0x00FF }, fun _ => true),
   (.seqHalt, 0x20, fun _ => { p := 0 }, fun _ => true)]

/-- SQ_PC is at the microword, and the next address is the one after (R204). -/
def advanced (g : GrateNo) (s : State) : State :=
  modGrate g.toNat (fun y => { y with npc := y.pc + 1 }) (modGrate g.toNat (fun y => { y with pc := y.npc }) s)

end Sys2Proof.Machine
end

