-- ==== Sys2Proof/Certificates/Slice0/Obligations.lean ====
section
/-! DEFINITION. The statements for the provers. Each command's statement says which next state its own effect gives; `done`
adds what that effect entails, and `Settled` says when that is nothing. That a command's consequences are worked off in its
own step, in the order they arose, is the model's choice in every statement that names `done`: log entry 5. -/
open Sys2Proof Sys2Proof.Machine

/-! ### Stoker instructions -/

/-- R149, R165, R166: the operations of rows 3 and 4 that write Dn, from a register or an immediate (the shifts from one below
32), in both widths, with and without NOFLAG: Dn takes the result, FLAGS its flags, the PC moves on, INSTR_CNT counts, and
nothing else changes. -/
def Obligations.AluWrites : Prop :=
  (∀ p ∈ ([(.mov, fun w _ b _ => aluLogic w b), (.add, fun w a b _ => aluAdd w a b 0), (.adc, aluAdd),
       (.sub, fun w a b _ => aluSub w a b 0), (.sbc, aluSub), (.and, fun w a b _ => aluLogic w (a &&& b)),
       (.or, fun w a b _ => aluLogic w (a ||| b)), (.xor, fun w a b _ => aluLogic w (a ^^^ b)),
       (.shl, fun w a b _ => aluShl w a (b % 32)), (.shr, fun w a b _ => aluShr w a (b % 32)),
       (.sar, fun w a b _ => aluSar w a (b % 32)), (.rol, fun w a b _ => aluRol w a (b % 32))] :
       List ((Iss → Dreg → AluSrc → Instr) × (Nat → Nat → Nat → Nat → Alu))),
     ∀ (i : Iss) (dn : Dreg) (src : AluSrc) (s : State),
       ready i.sub s = true → i.rep = .none → i.dbl = false → i.bank = none → i.atom = false →
       (i.wide = true → dn.toNat % 2 = 0) →
       (match src with
        | .reg m => i.wide = true → m.toNat % 2 = 0
        | .imm v => v.toNat < 32
        | .mem _ => False) →
       let c := ctx i.sub.toNat s
       exec (p.1 i dn src) s = .next (done s (ran i.sub (b2n i.wide + b2n i.noflag + 1 + aluLen i src)
         (withAlu i dn (p.2 (widthBits i) (getDw i.wide dn.toNat c) (srcVal i src c) (b2n (bit (getF c) 1))) c) s))) ∧
  (∀ p ∈ ([(.mov, fun w _ b _ => aluLogic w b), (.add, fun w a b _ => aluAdd w a b 0), (.adc, aluAdd),
       (.sub, fun w a b _ => aluSub w a b 0), (.sbc, aluSub), (.and, fun w a b _ => aluLogic w (a &&& b)),
       (.or, fun w a b _ => aluLogic w (a ||| b)), (.xor, fun w a b _ => aluLogic w (a ^^^ b))] :
       List ((Iss → Dreg → AluSrc → Instr) × (Nat → Nat → Nat → Nat → Alu))),
     ∀ (i : Iss) (dn : Dreg) (v : W32) (s : State),
       ready i.sub s = true → i.rep = .none → i.dbl = false → i.bank = none → i.atom = false →
       (i.wide = true → dn.toNat % 2 = 0) →
       let c := ctx i.sub.toNat s
       exec (p.1 i dn (.imm v)) s = .next (done s (ran i.sub (b2n i.wide + b2n i.noflag + 1 + (if i.wide then 5 else 3))
         (withAlu i dn (p.2 (widthBits i) (getDw i.wide dn.toNat c) (v.toNat % 2 ^ widthBits i) (b2n (bit (getF c) 1))) c) s)))

/-- R149, R150: CMP and TST change flags only; NEG and NOT; EXT and SWPB on 16 bits. R156: the bit opcodes: Z is the
complement of the old bit, the other flags stay; BFX and BFI on fields that fit. -/
def Obligations.UnaryAndBitOpcodes : Prop :=
  (∀ (i : Iss) (dn dm : Dreg) (s : State),
     ready i.sub s = true → i.rep = .none → i.dbl = false → i.bank = none → i.atom = false →
     let c := ctx i.sub.toNat s
     let w := widthBits i
     let a := getDw i.wide dn.toNat c
     let b := getDw i.wide dm.toNat c
     let n := b2n i.wide + b2n i.noflag
     ((i.wide = true → dn.toNat % 2 = 0 ∧ dm.toNat % 2 = 0) →
       (i.noflag = false →
         exec (.cmp i dn (.reg dm)) s = .next (done s (ran i.sub (n + 2) (withFlags i (aluSub w a b 0) c) s)) ∧
         exec (.tst i dn (.reg dm)) s = .next (done s (ran i.sub (n + 2) (withFlags i (aluLogic w (a &&& b)) c) s))) ∧
       exec (.neg i dn dm) s = .next (done s (ran i.sub (n + 2) (withAlu i dn (aluSub w 0 b 0) c) s)) ∧
       exec (.not i dn dm) s = .next (done s (ran i.sub (n + 2) (withAlu i dn (aluLogic w (2 ^ w - 1 - b)) c) s))) ∧
     (i.wide = false →
       exec (.ext i dn) s = .next (done s (ran i.sub (n + 2)
         (withAlu i dn (aluLogic 16 (tc 16 (sx 8 (getD dn.toNat c).toNat))) c) s)) ∧
       exec (.swpb i dn) s = .next (done s (ran i.sub (n + 2)
         (withAlu i dn (aluLogic 16 (fld (getD dn.toNat c) 7 0 * 256 + fld (getD dn.toNat c) 15 8)) c) s)))) ∧
  (∀ (sub : Sub) (dn dm : Dreg) (b pos wid1 : BitVec 4) (s : State), ready sub s = true →
     let c := ctx sub.toNat s
     let old := bit (getD dn.toNat c) b.toNat
     let z (x : Ctx) : Ctx := setF (setBit (getF x) 3 (!old)) x
     let put (v : Bool) : Ctx := z (setD dn.toNat (setBit (getD dn.toNat c) b.toNat v) c)
     exec (.bset (bare sub) dn b) s = .next (done s (ran sub 2 (put true) s)) ∧
     exec (.bclr (bare sub) dn b) s = .next (done s (ran sub 2 (put false) s)) ∧
     exec (.bchg (bare sub) dn b) s = .next (done s (ran sub 2 (put (!old)) s)) ∧
     exec (.btst (bare sub) dn b) s = .next (done s (ran sub 2 (z c) s)) ∧
     (pos.toNat + wid1.toNat + 1 ≤ 16 →
       exec (.bfx (bare sub) dn dm pos wid1) s = .next (done s (ran sub 3
         (withAlu (bare sub) dn (aluLogic 16 (fld (getD dm.toNat c) (pos.toNat + wid1.toNat) pos.toNat)) c) s)) ∧
       exec (.bfi (bare sub) dn dm pos wid1) s = .next (done s (ran sub 3
         (withAlu (bare sub) dn (aluLogic 16 (setFld (getD dn.toNat c) (pos.toNat + wid1.toNat) pos.toNat
           (fld (getD dm.toNat c) wid1.toNat 0)).toNat) c) s))))

/-- R147, R148, R159: transfers, taken and not; loops push an entry or skip their body; NOP, FENCE and ENDL at an empty loop
stack. -/
def Obligations.ControlOpcodes : Prop :=
  ∀ (sub : Sub) (s : State), ready sub s = true →
    let c := ctx sub.toNat s
    let at_ (n : Nat) : Nat := c.pc.toNat + n
    exec (.nop (bare sub)) s = .next (done s (ran sub 1 c s)) ∧
    exec (.fence (bare sub)) s = .next (done s (ran sub 1 c s)) ∧
    exec (.endl (bare sub)) s = .next (done s (ran sub 1 c s)) ∧
    (∀ rel : BitVec 24, exec (.jmp (bare sub) rel) s = .next (done s (ranTo sub (at_ 4 + rel.toNat) c s))) ∧
    (∀ dn : Dreg, dn.toNat % 2 = 0 → exec (.jmpReg (bare sub) dn) s = .next (done s (ranTo sub
      ((getD dn.toNat c).toNat % 256 * 65536 + (getD (dn.toNat + 1) c).toNat) c s))) ∧
    (∀ (cc : BitVec 4) (d : Byte), cc ≠ 15 → condHolds cc.toNat (getF c) = false →
      exec (.bcc (bare sub) cc (.d8 d)) s = .next (done s (ran sub 2 c s))) ∧
    (∀ (cc : BitVec 4) (d : Word), cc ≠ 15 → condHolds cc.toNat (getF c) = false →
      exec (.bcc (bare sub) cc (.d16 d)) s = .next (done s (ran sub 3 c s))) ∧
    (∀ (cc : BitVec 4) (d : Byte), cc ≠ 15 → condHolds cc.toNat (getF c) = true →
      let t := tc 24 (((c.pc.toNat + 2) % 2 ^ 24 : Nat) + sx 8 d.toNat)
      exec (.bcc (bare sub) cc (.d8 d)) s = .next (done s (ranTo sub t c (trace sub.toNat 4 c.pc.toNat t s)))) ∧
    (∀ (cc : BitVec 4) (d : Word), cc ≠ 15 → condHolds cc.toNat (getF c) = true →
      let t := tc 24 (((c.pc.toNat + 3) % 2 ^ 24 : Nat) + sx 16 d.toNat)
      exec (.bcc (bare sub) cc (.d16 d)) s = .next (done s (ranTo sub t c (trace sub.toNat 4 c.pc.toNat t s)))) ∧
    (∀ cnt len : Word, len ≠ 0 → cnt ≠ 0 → exec (.loop (bare sub) cnt len) s = .next (done s (ran sub 5
      { c with loops := [⟨c.pc + 5, BitVec.ofNat 24 (at_ 5 + len.toNat), cnt⟩] } s))) ∧
    (∀ len : Word, len ≠ 0 → exec (.loop (bare sub) 0 len) s = .next (done s (ranTo sub (at_ 5 + len.toNat) c s))) ∧
    (∀ (dk : Dreg) (len : Word), len ≠ 0 → getD dk.toNat c ≠ 0 →
      exec (.loopd (bare sub) dk len) s = .next (done s (ran sub 4
        { c with loops := [⟨c.pc + 4, BitVec.ofNat 24 (at_ 4 + len.toNat), getD dk.toNat c⟩] } s))) ∧
    (∀ (dk : Dreg) (len : Word), len ≠ 0 → getD dk.toNat c = 0 →
      exec (.loopd (bare sub) dk len) s = .next (done s (ranTo sub (at_ 4 + len.toNat) c s)))

/-- R160: at the end of a loop body the top entry goes round again while its count is at least 2, and is popped at 1, when
execution falls through. R161, R162: REP with count n of a register operation: with 0 nothing is done and the PC moves on;
with 1 it runs once; with more, one repetition runs, the rest is kept in REPCNT and the PC stays. Model's choices in it: log
entry 15. -/
def Obligations.LoopsAndRepetition : Prop :=
  (∀ (sub : Sub) (l : LoopEnt) (s : State),
     ready sub (modCtx sub.toNat (fun c => { c with loops := [] }) s) = true → (ctx sub.toNat s).loops = [l] →
     let c := ctx sub.toNat s
     (l.le ≠ c.pc + 1 → exec (.nop (bare sub)) s = .next (done s (ran sub 1 c s))) ∧
     (l.le = c.pc + 1 → 2 ≤ l.lc.toNat → exec (.nop (bare sub)) s =
       .next (done s (ranTo sub l.ls.toNat { c with loops := [{ l with lc := l.lc - 1 }] } s))) ∧
     (l.le = c.pc + 1 → l.lc.toNat < 2 → exec (.nop (bare sub)) s = .next (done s (ran sub 1 { c with loops := [] } s)))) ∧
  (∀ (sub : Sub) (n : Byte) (dn dm : Dreg) (s : State), ready sub s = true →
     let c := ctx sub.toNat s
     let i : Iss := { sub := sub, rep := .rep n }
     let c0 : Ctx := { c with repEnd := 0 }
     let c1 := withAlu i dn (aluAdd 16 (getD dn.toNat c).toNat (getD dm.toNat c).toNat 0) c0
     (n = 0 → exec (.add i dn (.reg dm)) s = .next (done s (ran sub 4 c0 s))) ∧
     (n = 1 → exec (.add i dn (.reg dm)) s = .next (done s (ran sub 4 c1 s))) ∧
     (2 ≤ n.toNat → exec (.add i dn (.reg dm)) s =
       .next (done s (modCtx sub.toNat (fun _ => { c1 with rep := some (n.toNat - 1) }) s))))

/-- R150, R145: moves between registers, and address arithmetic without memory access. A register that software may not name
is excluded by its reserved code; a destination of the units faults (R151). -/
def Obligations.RegisterMoves : Prop :=
  ∀ (sub : Sub) (xd xs : Xr) (v : Word) (an : Areg) (dm : Dreg) (e : EA) (s : State), ready sub s = true →
    let c := ctx sub.toNat s
    let put (w : Word) (n : Nat) : State :=
      let r := setX xd.toNat w c
      ran sub n r.1 (doIf r.2 (setRgBit (bStk (stkOf sub.toNat)) 1 7 true) s)
    (xrBad xd.toNat = false → xrUnit xd.toNat = false → xrBad xs.toNat = false →
      exec (.movx (bare sub) xd xs) s = .next (done s (put (getX xs.toNat c) 3))) ∧
    (xrBad xd.toNat = false → xrUnit xd.toNat = false → exec (.movxi (bare sub) xd v) s = .next (done s (put v 4))) ∧
    exec (.adda (bare sub) an (.imm v)) s = .next (done s (ran sub 4 (setA an.toNat (getA an.toNat c + v) c) s)) ∧
    exec (.adda (bare sub) an (.reg dm)) s =
      .next (done s (ran sub 2 (setA an.toNat (getA an.toNat c + getD dm.toNat c) c) s)) ∧
    (∀ m d, leaMode e = true → eaOffset e c = some (m, d) → exec (.lea (bare sub) an e) s =
      .next (done s (ran sub (2 + eaLen e) (setA an.toNat (getA m c + wd d) c) s)))

/-- R128, R152, R167 to R171: multiplies and divides put a result on its way, and its landing writes P, or QUO and REM
with sticky DZ and V. Model's choices in it: log entry 99. -/
def Obligations.MultiplyDivide : Prop :=
  ∀ (i : Iss) (dn dm : Dreg) (s : State),
    i.rep = .none → i.dbl = false → i.bank = none → i.atom = false → i.noflag = false →
    (i.wide = true → dm.toNat % 2 = 0) → dn.toNat % 2 = 0 →
    let c := ctx i.sub.toNat s
    let n := b2n i.wide + 2
    let a := getDw i.wide dn.toNat c
    let b := getDw i.wide dm.toNat c
    let put (sg : Bool) : Ctx := { c with prods := [{ wide := i.wide, p := BitVec.ofNat 64 (product sg i.wide a b) }] }
    let quot (sg : Bool) : Ctx :=
      let r := divide sg i.wide (getDw true dn.toNat c) b
      { c with div := some { quo := BitVec.ofNat 32 r.1, rem := BitVec.ofNat 32 r.2.1, v := r.2.2.1, dz := r.2.2.2 } }
    (ready i.sub s = true →
      exec (.mulu i dn dm) s = .next (done s (ran i.sub n (put false) s)) ∧
      exec (.muls i dn dm) s = .next (done s (ran i.sub n (put true) s)) ∧
      exec (.divu i dn dm) s = .next (done s (ran i.sub n (quot false) s)) ∧
      exec (.divs i dn dm) s = .next (done s (ran i.sub n (quot true) s))) ∧
    (up s = true → (s.loads.find? fun kv => kv.1 == i.sub.toNat) = none →
      (∀ q, c.prods = [q] → exec (.productLanding i.sub q.wide) s = .next (done s (modCtx i.sub.toNat (fun x =>
        putRs 0x20 (wordsOf 4 q.p.toNat) { x with prods := [] }) s))) ∧
      (∀ d, c.div = some d → exec (.divideComplete i.sub) s = .next (done s (modCtx i.sub.toNat (fun x =>
        let f := if d.dz then setBit (getF x) 7 true else getF x
        setF (if d.writeV then setBit f 0 d.v else f)
          (putRs 0x24 (wordsOf 2 d.quo.toNat ++ wordsOf 2 d.rem.toNat) { x with div := none })) s))))

/-- R153, R172 to R179: floating-point operations in both precisions: those whose result comes later, its landing in the E
register with its sticky bits, and those that write at once. -/
def Obligations.FloatOpcodes : Prop :=
  (∀ (i : Iss) (ed ea eb ec : Ereg) (kind : BitVec 4) (s : State), ready i.sub s = true →
     i.rep = .none → i.wide = false → i.bank = none → i.atom = false → i.noflag = false →
     let c := ctx i.sub.toNat s
     let f := fmtOf i
     let a := fpArg i ea c
     let b := fpArg i eb c
     let n := b2n i.dbl + 2
     let go (shared : Bool) (r : Nat × Nat) : Host.Outcome State Fault Refusal :=
       .next (done s (ran i.sub n { c with
         fops := [{ ed := ed, val := BitVec.ofNat 64 r.1, flags := wd r.2, shared := shared }] } s))
     exec (.fadd i ed ea eb) s = go false (f.add (frm c) a b) ∧
     exec (.fsub i ed ea eb) s = go false (f.sub (frm c) a b) ∧
     exec (.fmul i ed ea eb) s = go false (f.mul (frm c) a b) ∧
     exec (.fma i ed ea eb ec) s = go false (f.fma (frm c) false a b (fpArg i ec c)) ∧
     exec (.fnma i ed ea eb ec) s = go false (f.fma (frm c) true a b (fpArg i ec c)) ∧
     (loopBusy i.sub.toNat c s = false →
       exec (.fdiv i ed ea eb) s = go true (f.div (frm c) a b) ∧
       exec (.fsqrt i ed ea) s = go true (f.sqrt (frm c) a)) ∧
     (kind.toNat < 8 → (kind.toNat < 2 → i.dbl = false) →
       exec (.fcvt i ed ea kind) s = go false (fcvt kind.toNat i.dbl (frm c) (getE ea.toNat c).toNat))) ∧
  (∀ (i : Iss) (ed ea eb : Ereg) (s : State),
     let c := ctx i.sub.toNat s
     let f := fmtOf i
     let a := fpArg i ea c
     let b := fpArg i eb c
     let n := b2n i.dbl + 2
     let now (r : Nat × Nat) : Host.Outcome State Fault Refusal :=
       .next (done s (ran i.sub n (setF (getF c ||| wd r.2) (setE ed.toNat (BitVec.ofNat 64 r.1) c)) s))
     (up s = true → (s.loads.find? fun kv => kv.1 == i.sub.toNat) = none → ∀ q, c.fops = [q] → q.ed = ed →
       exec (.floatResultComplete i.sub ed) s = .next (done s (modCtx i.sub.toNat (fun x =>
         setF (getF x ||| q.flags) (setE ed.toNat q.val { x with fops := [] })) s))) ∧
     (ready i.sub s = true → i.rep = .none → i.wide = false → i.bank = none → i.atom = false → i.noflag = false →
       exec (.fmin i ed ea eb) s = now (f.minmax false a b) ∧
       exec (.fmax i ed ea eb) s = now (f.minmax true a b) ∧
       exec (.fneg i ed ea) s = now (f.signOp 0 a, 0) ∧
       exec (.fabs i ed ea) s = now (f.signOp 1 a, 0) ∧
       exec (.fmov i ed ea) s = now (f.signOp 2 a, 0) ∧
       exec (.fcmp i ea eb) s = .next (done s (ran i.sub n
         (let r := f.cmp a b
          setF (setBit (setBit (setBit (setBit (getF c ||| wd r.2.2.2) 3 r.1) 2 r.2.1) 0 r.2.2.1) 1 false) c) s))))

/-- R153: 64-bit integers and moves of the E registers. -/
def Obligations.LongIntegers : Prop :=
  ∀ (sub : Sub) (ed ea eb : Ereg) (n : BitVec 6) (v : W64) (g : BitVec 2) (s : State), ready sub s = true →
    let c := ctx sub.toNat s
    let a := (getE ea.toNat c).toNat
    let b := (getE eb.toNat c).toNat
    let put (len : Nat) (r : Alu) : Host.Outcome State Fault Refusal :=
      .next (done s (ran sub len (withFlags (bare sub) r (setE ed.toNat (BitVec.ofNat 64 r.res) c)) s))
    exec (.eadd (bare sub) ed ea eb) s = put 2 (aluAdd 64 a b 0) ∧
    exec (.esub (bare sub) ed ea eb) s = put 2 (aluSub 64 a b 0) ∧
    exec (.ecmp (bare sub) ea eb) s = .next (done s (ran sub 2 (withFlags (bare sub) (aluSub 64 a b 0) c) s)) ∧
    exec (.eshl (bare sub) ed ea n) s = put 3 (aluShl 64 a n.toNat) ∧
    exec (.eshr (bare sub) ed ea n) s = put 3 (aluShr 64 a n.toNat) ∧
    exec (.esar (bare sub) ed ea n) s = put 3 (aluSar 64 a n.toNat) ∧
    exec (.ldie (bare sub) ed v) s = .next (done s (ran sub 10 (setE ed.toNat v c) s)) ∧
    exec (.moved (bare sub) false ed g) s = .next (done s (ran sub 2 (setE ed.toNat
      (BitVec.ofNat 64 (valOf ((span (4 * g.toNat) 4).map fun k => getD k c))) c) s)) ∧
    exec (.moved (bare sub) true ed g) s =
      .next (done s (ran sub 2 (putRs (4 * g.toNat) (wordsOf 4 (getE ed.toNat c).toNat) c) s)) ∧
    exec (.movpe (bare sub) ed) s =
      .next (done s (ran sub 2 (setE ed.toNat (BitVec.ofNat 64 (valOf ((span 0x20 4).map fun x => mget 0 x c.r))) c) s))

/-- R122, R144, R150, R155: instructions that load from memory, through every EA mode: the words at the addresses the EA
gives, from the data prefetch buffer where it holds them, reach the register, with ZN0 for a D register, or the compare's
flags, and the context awaits the data. Model's choices in it: log entries 16, 29. -/
def Obligations.Loads : Prop :=
  ∀ (sub : Sub) (e : EA) (ks : List Nat) (ws : List Word) (s : State), ready sub s = true →
    let i := bare sub
    let c := ctx sub.toNat s
    (∀ x : Xr, xrBad x.toNat = false → xrUnit x.toNat = false →
      placesAt sub (eaEval i e 1 c).1 ks s → loadsAt sub ks ws s →
      ∃ u, exec (.ld i x e) s = .next (done s u) ∧
        awaits sub (2 + eaLen e) (setX x.toNat (nth ws 0) (if xrData x.toNat then
          withFlags i (aluLogic 16 (valOf ws)) (eaEval i e 1 c).2 else (eaEval i e 1 c).2)).1 s u) ∧
    (∀ ek : Ereg, placesAt sub (eaEval i e 4 c).1 ks s → loadsAt sub ks ws s →
      ∃ u, exec (.lde i ek e) s = .next (done s u) ∧
        awaits sub (2 + eaLen e) (setE ek.toNat (BitVec.ofNat 64 (valOf ws)) (eaEval i e 4 c).2) s u) ∧
    (∀ p ∈ ([(.add, fun a b _ => aluAdd 16 a b 0), (.adc, fun a b f => aluAdd 16 a b f), (.sub, fun a b _ => aluSub 16 a b 0),
        (.sbc, fun a b f => aluSub 16 a b f), (.and, fun a b _ => aluLogic 16 (a &&& b)), (.or, fun a b _ => aluLogic 16 (a ||| b)),
        (.xor, fun a b _ => aluLogic 16 (a ^^^ b))] : List ((Iss → Dreg → AluSrc → Instr) × (Nat → Nat → Nat → Alu))),
      ∀ dn : Dreg, placesAt sub (eaEval i e 1 c).1 ks s → loadsAt sub ks ws s →
      let c1 := (eaEval i e 1 c).2
      ∃ u, exec (p.1 i dn (.mem e)) s = .next (done s u) ∧
        awaits sub (2 + eaLen e)
          (withAlu i dn (p.2 (getD dn.toNat c1).toNat (valOf ws) (b2n (bit (getF c1) 1))) c1) s u) ∧
    (∀ dn : Dreg, placesAt sub (eaEval i e 1 c).1 ks s → loadsAt sub ks ws s →
      let c1 := (eaEval i e 1 c).2
      ∃ u, exec (.cmp i dn (.mem e)) s = .next (done s u) ∧
        awaits sub (2 + eaLen e) (withFlags i (aluSub 16 (getD dn.toNat c1).toNat (valOf ws) 0) c1) s u) ∧
    (∀ (an : Areg) (dk : Dreg), placesAt sub (eaEval i (.postInc an) 1 c).1 ks s → loadsAt sub ks ws s →
      let c1 := (eaEval i (.postInc an) 1 c).2
      ∃ u, exec (.scans i an dk) s = .next (done s u) ∧
        awaits sub 2 (withFlags i (aluSub 16 (valOf ws) (getD dk.toNat c1).toNat 0) c1) s u)

/-- R116, R147, R150: the stack: POP and RET load through A7, which moves up; PUSH and the calls store below it. Model's
choices in it: log entries 16, 29. -/
def Obligations.StackOpcodes : Prop :=
  ∀ (sub : Sub) (ks : List Nat) (ws : List Word) (s : State), ready sub s = true →
    let i := bare sub
    let c := ctx sub.toNat s
    let below (n : Nat) : Ctx := setA 7 (getA 7 c - wd n) c
    let call (len : Nat) (target : Nat) : Host.Outcome State Fault Refusal :=
      .next (done s (ranTo sub target (posting sub ks (wordsOf 2 ((c.pc.toNat + len) % 2 ^ 24)) (below 2) s) (storeIssued sub s)))
    (∀ x : Xr, xrBad x.toNat = false → xrUnit x.toNat = false →
      placesAt sub (bankAddrs i 7 (getA 7 c).toNat 1 c) ks s → loadsAt sub ks ws s →
      ∃ u, exec (.pop i x) s = .next (done s u) ∧
        awaits sub 2 (setX x.toNat (nth ws 0) (setA 7 (getA 7 c + 1) c)).1 s u) ∧
    (placesAt sub (bankAddrs i 7 (getA 7 c).toNat 2 c) ks s → loadsAt sub ks ws s →
      ∃ u, exec (.ret i) s = .next (done s u) ∧
        (ctx sub.toNat u).pc = BitVec.ofNat 24 (fld (nth ws 0) 7 0 * 65536 + (nth ws 1).toNat) ∧
        getA 7 (ctx sub.toNat u) = getA 7 c + 2 ∧ (ctx sub.toNat u).stall = .load ∧ u.mem = s.mem) ∧
    (∀ x : Xr, xrBad x.toNat = false → placesAt sub (bankAddrs i 7 (getA 7 (below 1)).toNat 1 (below 1)) ks s →
      exec (.push i x) s = .next (done s (ran sub 2 (posting sub ks [getX x.toNat c] (below 1) s) (storeIssued sub s)))) ∧
    (placesAt sub (bankAddrs i 7 (getA 7 (below 2)).toNat 2 (below 2)) ks s →
      (∀ rel : BitVec 24, exec (.call i rel) s = call 4 (c.pc.toNat + 4 + rel.toNat)) ∧
      (∀ dn : Dreg, dn.toNat % 2 = 0 → exec (.callReg i dn) s =
        call 2 ((getD dn.toNat c).toNat % 256 * 65536 + (getD (dn.toNat + 1) c).toNat)))

/-- R124, R150, R155: a store to memory joins the posted stores at the addresses its EA gives; memory changes when it is
acknowledged. -/
def Obligations.Stores : Prop :=
  ∀ (sub : Sub) (e : EA) (ks : List Nat) (s : State), ready sub s = true →
    let i := bare sub
    let c := ctx sub.toNat s
    (∀ x : Xr, xrBad x.toNat = false → placesAt sub (eaEval i e 1 c).1 ks s →
      exec (.st i e x) s = .next (done s
        (ran sub (2 + eaLen e) (posting sub ks [getX x.toNat c] (eaEval i e 1 c).2 s) (storeIssued sub s)))) ∧
    (∀ ek : Ereg, placesAt sub (eaEval i e 4 c).1 ks s →
      exec (.ste i e ek) s =
        .next (done s
          (ran sub (2 + eaLen e) (posting sub ks (wordsOf 4 (getE ek.toNat c).toNat) (eaEval i e 4 c).2 s) (storeIssued sub s)))) ∧
    (∀ (an : Areg) (dk : Dreg), placesAt sub (eaEval i (.postInc an) 1 c).1 ks s →
      exec (.fills i an dk) s =
        .next (done s
          (ran sub 2 (posting sub ks [getD dk.toNat c] (eaEval i (.postInc an) 1 c).2 s) (storeIssued sub s))))

/-- R122, R124, R125, R234: the oldest posted store of a context is acknowledged: its words stand in memory, no other byte
changes. The data of a load arrives without an error and the context goes on; an uncorrectable error in SRAM undoes the
instruction: the context is as before it, and its program is asked to end with fault 0x0C. Model's choices in it: log
entries 16, 17, 98. -/
def Obligations.MemoryAnswers : Prop :=
  (∀ (sub : Sub) (st : Store) (rest : List Store) (s : State), up s = true →
     (ctx sub.toNat s).stall = .none → (ctx sub.toNat s).posted = st :: rest → (ctx sub.toNat s).drain = [] → st.tags = [] →
     outOfOrder sub.toNat st s = false → st.addr.length = st.words.length → st.addr.Nodup →
     (∀ k ∈ st.addr, place none none k s = .mem k ∧ ¬ (0x20000000 ≤ k ∧ k < 0x30000000)) →
     ∃ u, exec (.storeAck sub 0) s = .next (done s u) ∧ (ctx sub.toNat u).posted = rest ∧
       (∀ k w, (k, w) ∈ st.addr.zip st.words → memWord k u = some w) ∧
       (∀ b, b / 2 ∉ st.addr → getByte b u.mem = getByte b s.mem)) ∧
  (∀ (sub : Sub) (e : LoadWait) (s : State), up s = true → (ctx sub.toNat s).stall = .load →
     (s.loads.find? fun kv => kv.1 == sub.toNat) = some (sub.toNat, e) →
     exec (.loadDataReturn sub 0) s = .next (done s (unstall sub.toNat { s with loads := merase sub.toNat s.loads })) ∧
     (∀ a k rest, e.accs = [(a, k :: rest)] → k < 0x20000000 → ∀ w, memWord k s = some w →
       ∃ v, exec (.loadDataReturn sub 2) s =
           .next (done s (stokerFaultAt sub.toNat 0x0C a e.before.pc.toNat v)) ∧
         (ctx sub.toNat v).r = e.before.r ∧ (ctx sub.toNat v).e = e.before.e ∧ (ctx sub.toNat v).pc = e.before.pc ∧
         (ctx sub.toNat v).posted = e.before.posted))

/-- R126, R150, R152, R156: instructions that read and then store memory, in plain form: the words read, the words posted,
and the registers and flags they leave. With ATOM the exchange and the compare-and-swap reach memory in the same step, and
no other byte of memory changes. Model's choices in it: log entry 16. -/
def Obligations.ReadAndStoreOpcodes : Prop :=
  (∀ (sub : Sub) (dn dm : Dreg) (e d : EA) (ks ls : List Nat) (w : Word) (s : State), ready sub s = true →
     let i := bare sub
     let c := ctx sub.toNat s
     let c1 := (eaEval i e 1 c).2
     let n := 2 + eaLen e
     (placesAt sub (eaEval i e 1 c).1 ks s → loadsAt sub ks [w] s →
       (placesAt sub (eaEval i d 1 c1).1 ls s →
         ∃ u, exec (.move i e d) s = .next (done s u) ∧
           awaits sub (1 + eaLen e + eaLen d) (posting sub ls [w] (eaEval i d 1 c1).2 s) s u) ∧
       (∃ u, exec (.xchg i dn e) s = .next (done s u) ∧
         awaits sub n (setD dn.toNat w (posting sub ks [getD dn.toNat c1] c1 s)) s u) ∧
       (let r := aluAdd 16 w.toNat (getD dn.toNat c1).toNat 0
        ∃ u, exec (.addm i e dn) s = .next (done s u) ∧
         awaits sub n (withFlags i r (posting sub ks [wd r.res] c1 s)) s u) ∧
       (let r := aluLogic 16 (w.toNat &&& (getD dn.toNat c1).toNat)
        ∃ u, exec (.andm i e dn) s = .next (done s u) ∧
         awaits sub n (withFlags i r (posting sub ks [wd r.res] c1 s)) s u) ∧
       (let r := aluLogic 16 (w.toNat ||| (getD dn.toNat c1).toNat)
        ∃ u, exec (.orm i e dn) s = .next (done s u) ∧
         awaits sub n (withFlags i r (posting sub ks [wd r.res] c1 s)) s u) ∧
       (∃ u, exec (.cas i e dn dm) s = .next (done s u) ∧
         awaits sub n (let eq := w = getD dn.toNat c1
                       let c2 := if eq then posting sub ks [getD dm.toNat c1] c1 s else c1
                       let c3 := setD dn.toNat w c2
                       setF (setBit (getF c3) 3 (decide eq)) c3) s u))) ∧
  (∀ (sub : Sub) (dn dm : Dreg) (e : EA) (k : Nat) (w : Word) (s : State), ready sub s = true →
     let i : Iss := { sub := sub, atom := true }
     let c := ctx sub.toNat s
     let c1 := (eaEval i e 1 c).2
     placesAt sub (eaEval i e 1 c).1 [k] s → wordsAt [k] [w] s →
       (∃ u, exec (.xchg i dn e) s = .next (done s u) ∧ getD dn.toNat (ctx sub.toNat u) = w ∧
         memWord k u = some (getD dn.toNat c1) ∧ (∀ b, b / 2 ≠ k → getByte b u.mem = getByte b s.mem)) ∧
       (∃ u, exec (.cas i e dn dm) s = .next (done s u) ∧ getD dn.toNat (ctx sub.toNat u) = w ∧
         bit (getF (ctx sub.toNat u)) 3 = decide (w = getD dn.toNat c1) ∧
         memWord k u = some (if w = getD dn.toNat c1 then getD dm.toNat c1 else w) ∧
         (∀ b, b / 2 ≠ k → getByte b u.mem = getByte b s.mem)))

/-- R152, R181: packed decimal on memory fields: the field at (An) takes the sum or difference, Z and N follow it, a sum
that does not fit sets sticky DV; a field with a bad digit or sign sets sticky DI and changes nothing else. Model's
choices in it: log entries 16, 25, 29. -/
def Obligations.PackedDecimal : Prop :=
  ∀ (sub : Sub) (an am : Areg) (n : BitVec 5) (ks ls : List Nat) (xs ys : List Word) (s : State), ready sub s = true → n ≠ 0 →
    let i := bare sub
    let c := ctx sub.toNat s
    let w := decWords n.toNat
    placesAt sub (bankAddrs i an.toNat (getA an.toNat c).toNat w c) ks s → loadsAt sub ks xs s →
    placesAt sub (bankAddrs i am.toNat (getA am.toNat c).toNat w c) ls s → loadsAt sub ls ys s →
    let after (minus : Bool) : Ctx :=
      match decAdd n.toNat minus xs ys with
      | none => setF (setBit (getF c) 6 true) c
      | some (ws, z, neg, ov) =>
        let f := if ov then setBit (getF c) 5 true else getF c
        setF (setBit (setBit f 3 z) 2 neg) (posting sub ks ws c s)
    (∃ u, exec (.dadd i an am n) s = .next (done s u) ∧ awaits sub 3 (after false) s u) ∧
    (∃ u, exec (.dsub i an am n) s = .next (done s u) ∧ awaits sub 3 (after true) s u)

/-! ### The frame timer -/

/-- R23, R24, R26 to R29, R40, R41, R44: the registers and the decisions of the frame timer, before and between ticks.
Model's choices in it: log entries 36, 37, 71, 78, 81. -/
def Obligations.FrameTimer : Prop :=
  ∀ (src : Src) (v h : Word) (k : StokerNo) (tb : Bool) (n : BitVec 5) (w : BitVec 2) (s : State), up s = true →
    (s.ft.running = false → s.ft.waiting = false →
      exec (.dtbLoad src 1) s = .next (done s { s with ft := { s.ft with dtb := rgs 0 0x14 4 s } }) ∧
      (booted s = true → exec (.frmCtlRunSet src true) s = .next (done s
        (let t := setRg 0 0 3 (cfgNote src (ra 0 0) 3 s)
         { t with ft := { t.ft with
           waiting := true, startSync := true, started := false, stopPending := false, decided := false } })))) ∧
    (s.ft.running = true → exec (.frmCtlRunClear src false) s = .next (done s
      (let t := setRg 0 0 0 (cfgNote src (ra 0 0) 0 s); { t with ft := { t.ft with stopPending := true } }))) ∧
    (s.ft.running = true → s.ft.stopPending = true → ∃ u, exec .frameStopComplete s = .next (done s u) ∧
      u.ft.running = false ∧ u.ft.stopPending = false ∧ u.ft.frmNum = s.ft.frmNum ∧ u.mem = s.mem ∧ u.sch = s.sch ∧
      u.pins = s.pins) ∧
    ((∀ sub, src = .stoker sub → (stk (stkOf sub.toNat) s).spec = none) → exec (.dtbW0Read src) s =
      .next (done s { s with dtbHold := mset 0 (srcNo src) (BitVec.ofNat 64 s.ft.dtb) s.dtbHold })) ∧
    (∀ sub, onPath sub.toNat s = true → ∃ u, exec (.dtbW0Read (.stoker sub)) s = .next (done s u) ∧
      dtbHeld (.stoker sub) u = BitVec.ofNat 64 s.ft.dtb ∧ u.dtbHold = s.dtbHold) ∧
    exec (.frmPeriodHiWrite src v) s = .next (done s (stageHigh src (ra 0 2) v (cfgNote src (ra 0 2) v s))) ∧
    ((s.staged.find? fun kv => kv.1 == stageKey src (ra 0 2)) = none → 125 ≤ fld s.ft.commitHi 7 0 * 65536 + v.toNat →
      exec (.frmPeriodLoWrite src v) s = .next (done s
        (let t := cfgNote src (ra 0 3) v s
         { t with ft := { t.ft with
           pendPeriod := some (fld s.ft.commitHi 7 0 * 65536 + v.toNat), commitHi := wd (fld s.ft.commitHi 7 0) } }))) ∧
    ((s.staged.find? fun kv => kv.1 == stageKey src (ra 0 2)) = some (stageKey src (ra 0 2), h) →
      125 ≤ fld h 7 0 * 65536 + v.toNat → ∃ u, exec (.frmPeriodLoWrite src v) s = .next (done s u) ∧
        u.ft = { s.ft with pendPeriod := some (fld h 7 0 * 65536 + v.toNat), commitHi := wd (fld h 7 0) } ∧
        u.staged = merase (stageKey src (ra 0 2)) s.staged) ∧
    (256 ≤ (v &&& 0xFFF8).toNat → exec (.ashNsWrite src v) s = .next (done s
      (let t := cfgNote src (ra 0 4) v s; { t with ft := { t.ft with pendAsh := some (v &&& 0xFFF8) } }))) ∧
    (bit v 0 = false → 4 ≤ fld v 7 4 → fld v 7 4 ≤ 10 → ∃ u, exec (.syncCtlWrite src v) s = .next (done s u) ∧
      u.ft = { s.ft with pendK := some (BitVec.ofNat 4 (fld v 7 4)), sync := .off } ∧
      rg 0 5 u = (rg 0 5 s &&& 0xFFF8) ||| (v &&& 7)) ∧
    (s.ft.running = true → s.ft.inAsh = true → s.ft.stopPending = false → s.ft.decided = false → schedStokers s = [] →
      256 ≤ (s.ft.pendAsh.map fun a => a.toNat).getD s.ft.ash →
      2 * (s.ft.pendAsh.map fun a => a.toNat).getD s.ft.ash ≤ 8 * s.ft.pendPeriod.getD s.ft.period →
      ∃ u, exec .tickDecision s = .next (done s u) ∧ u.ft.period = s.ft.pendPeriod.getD s.ft.period ∧
        u.ft.ash = (s.ft.pendAsh.map fun a => a.toNat).getD s.ft.ash ∧
        u.ft.k = (s.ft.pendK.map fun a => a.toNat).getD s.ft.k ∧
        u.ft.pendPeriod = none ∧ u.ft.pendAsh = none ∧ u.ft.pendK = none ∧ u.ft.decided = true ∧
        u.ft.dtb = s.ft.dtb ∧ u.mem = s.mem ∧ u.ctx = s.ctx ∧ u.sch = s.sch) ∧
    exec .syncOutPulseEnd s = .next (done s { s with ft := { s.ft with syncOut := false } }) ∧
    (s.ft.snapDue = true → exec .shadowSwitch s = .next (done s { s with
      ft := { s.ft with snapDue := false, snapFrame := s.ft.frmNum.setWidth 16 }, shadowSel := !s.shadowSel })) ∧
    exec (.schedSwapRequest src k) s = .next (done s
      (setRgBit (bStk k.toNat) 0x400 8 true (cfgNote src (ra (bStk k.toNat) 0x400) 0x100 s))) ∧
    (s.ft.running = false → s.ft.waiting = false → exec (.slotWrite src k tb n w v) s = .next (done s
      (setRg (bStk k.toNat) (slotOfs tb n.toNat + w.toNat) (if w = 0 then v &&& 0x800F else v)
        (cfgNote src (ra (bStk k.toNat) (slotOfs tb n.toNat + w.toNat)) v s))))

/-- R30, R43, R44, R38: a tick: the frame number counts, the DTB stands at the tick, the counters are copied for readers; a
window of the active table opens with its owner, and ends. R33, R34: a SYNC_IN pulse inside the last tick's window corrects
the frame in progress by its error; a window that closes with a pulse is ready for the next, one without a pulse in LOCKED
is a miss and is counted. Model's choices in it: log entry 36. -/
def Obligations.TicksAndSync : Prop :=
  (∀ (s : State), up s = true → s.ft.running = true →
     (s.ft.stopPending = false → ∃ u, exec .tick s = .next (done s u) ∧ u.ft.frmNum = s.ft.frmNum + 1 ∧
       u.ft.dtb = max s.ft.dtb s.ft.nextTick ∧ u.ft.tickDtb = u.ft.dtb ∧ u.ft.decided = false ∧ u.ft.inAsh = false ∧
       u.ft.prevPeriod = s.ft.framePeriod ∧ u.ft.framePeriod = s.ft.period ∧ u.mem = s.mem ∧
       (if s.shadowSel then u.shadowA else u.shadowB) = s.regs.filter fun kv => isCounter kv.1) ∧
     (∀ (k : StokerNo) (e : BitVec 5) (x : Slot), s.ft.inAsh = false → (stk k.toNat s).noWindow = false →
       (stk k.toNat s).cur = none → slotOf k.toNat (activeB k.toNat s) e.toNat s = some x →
       exec (.scheduleWindowStart k e) s = .next (done s
         (addDue (.resched k.toNat) (modStk k.toNat (fun y => { y with window := some x.ctx }) s))) ∧
       ((stk k.toNat s).window = some x.ctx → (ctx (16 * k.toNat + x.ctx) s).run = .inactive →
         exec (.scheduleWindowEnd k e) s = .next (done s
           (addDue (.resched k.toNat) (modStk k.toNat (fun y => { y with window := none }) s)))))) ∧
  (∀ (r : Bool) (len : Word) (x : W64) (s : State), up s = true → s.ft.running = true → s.ft.sync = .locked →
     ((r = bit (rg 0 5 s) 1 ∨ len.toNat < 256) → exec (.syncInPulse ⟨r, len, x⟩) s = .next (done s s)) ∧
     (r ≠ bit (rg 0 5 s) 1 → 256 ≤ len.toNat → s.ft.waiting = false → s.ft.captured = false →
       inWindow s.ft.tickDtb s.ft.prevPeriod s.ft.framePeriod (x.toNat : Int) = true →
       let e : Int := (x.toNat : Int) - (16 * s.ft.tickDtb : Nat)
       ∃ u, exec (.syncInPulse ⟨r, len, x⟩) s = .next (done s u) ∧ u.ft.captured = true ∧ u.ft.sync = .locked ∧ u.ft.missRun = 0 ∧
         u.ft.syncErr = e ∧ (follows s = false → u.ft.syncCorr = pull e s.ft.framePeriod s.ft.k) ∧ u.ft.corr = u.ft.syncCorr ∧
         u.ft.nextTick = ((s.ft.tickDtb + 8 * s.ft.framePeriod : Nat) + u.ft.syncCorr).toNat ∧
         rgs 0 0x30 2 u = (rgs 0 0x30 2 s + 1) % 2 ^ 32) ∧
     (s.ft.captured = true → exec .syncWindowClose s = .next (done s { s with ft := { s.ft with captured := false } })) ∧
     (s.ft.captured = false → ∃ u, exec .syncWindowClose s = .next (done s u) ∧ u.ft.missRun = s.ft.missRun + 1 ∧
       rgs 0 0x32 2 u = (rgs 0 0x32 2 s + 1) % 2 ^ 32))

/-- R41: a write to the active schedule table is discarded from the start decision until frames stop, and sets WR_ACT; before
and after, either table takes it. R273: a write of ID_DEVNUM takes effect while every flue port has EN = 0, with every value
usable, and is discarded with DEVW set while one has EN = 1. -/
def Obligations.GuardedWrites : Prop :=
  ∀ (src : Src) (k : StokerNo) (tb : Bool) (e : BitVec 5) (w : BitVec 2) (v : Word) (s : State), up s = true →
    let b := bStk k.toNat
    let o := slotOfs tb e.toNat + w.toNat
    ((s.ft.running = true ∨ (s.ft.waiting = true ∧ s.ft.started = true)) → activeB k.toNat s = tb →
      ∃ u, exec (.slotWrite src k tb e w v) s = .next (done s u) ∧ bit (rg b 0x401 u) 6 = true ∧
        (∀ n, 0x500 ≤ n → n < 0x600 → rg b n u = rg b n s) ∧ u.mem = s.mem ∧ u.ft = s.ft) ∧
    ((s.ft.running = false ∧ (s.ft.waiting = false ∨ s.ft.started = false)) ∨ activeB k.toNat s ≠ tb →
      ∃ u, exec (.slotWrite src k tb e w v) s = .next (done s u) ∧ rg b o u = (if w = 0 then v &&& 0x800F else v) ∧
        rg b 0x401 u = rg b 0x401 s ∧ (∀ n, 0x500 ≤ n → n < 0x600 → n ≠ o → rg b n u = rg b n s) ∧ u.mem = s.mem ∧
        u.ft = s.ft) ∧
    ((∀ i, i < 4 → bit (rg (bFl i) 0 s) 15 = false) → ∃ u, exec (.devnumWrite src v) s = .next (done s u) ∧
      rg 0xC 3 u = v &&& 0x0FFF ∧ rg 0x14 0x101 u = rg 0x14 0x101 s ∧ u.mem = s.mem ∧ u.flues = s.flues) ∧
    ((∃ i, i < 4 ∧ bit (rg (bFl i) 0 s) 15 = true) → ∃ u, exec (.devnumWrite src v) s = .next (done s u) ∧
      rg 0xC 3 u = rg 0xC 3 s ∧ bit (rg 0x14 0x101 u) 6 = true ∧ u.mem = s.mem ∧ u.flues = s.flues)

/-! ### Memory -/

/-- R228, R234, R239, R240: memory: a stored word reads back, other bytes stay, a store ends a stored error; SRAM that
nothing has written reads 0, GDDR6 that nothing has written reads a value that nothing fixes. Model's choices in it: log
entries 7, 8. -/
def Obligations.MemoryReadAfterWrite : Prop :=
  ∀ (k : Nat) (w : Word) (s : State),
    memWord k (memPut k w s) = some w ∧ memRead k (memPut k w s) = (w, false, memPut k w s) ∧
    (∀ b, b / 2 ≠ k → getByte b (memPut k w s).mem = getByte b s.mem) ∧
    (Memory.wf s.mem = true → Memory.wf (memPut k w s).mem = true) ∧
    (s.mem = [] → mget 0 k s.marks = 0 → memRead k s =
      if k < 0x20000000 then (0, false, s) else (Config.freeWord s.free, false, { s with free := s.free + 1 }))

/-- R234 to R236, R238, R241: the memories' own commands. Model's choices in it: log entries 76, 105. -/
def Obligations.MemoryCommands : Prop :=
  ∀ (a : W32) (h : HearthNo) (d : BitVec 2) (s : State), up s = true →
    (place none none a.toNat s = .mem a.toNat → a.toNat < 0x20000000 → mget 0 a.toNat s.marks = 1 →
      exec (.sramCorrectionWriteback a) s = .next (done s { s with marks := merase a.toNat s.marks })) ∧
    (place none none a.toNat s = .mem a.toNat → a.toNat < 0x20000000 → mget 0 a.toNat s.marks = 0 →
      bit (rg (sramCtl a.toNat).1 (sramCtl a.toNat).2 s) 0 = true →
      ∃ u, exec (.scrubPatrol a 0) s = .next (done s u) ∧ u.mem = s.mem ∧ u.marks = s.marks ∧ u.regs = s.regs) ∧
    exec (.fabricLateAnswer h) s = .next (done s (count (bHrt h.toNat) 0x816 s)) ∧
    exec .gddr6Refresh s = .next (done s s) ∧
    (s.ft.inAsh = true → fld (rg 9 2 s) 15 8 ≠ 0 → fld (rg 9 2 s) 15 8 ≤ s.ft.framesSinceTrain → gdRet d.toNat s = false →
      exec (.gddr6RetrainStep d true) s = .next (done s
        (setRgBit 9 1 (8 + d.toNat) true { s with ft := { s.ft with framesSinceTrain := 0 } })))

/-! ### FIFOs and pins -/

/-- R154, R198: FIFO opcodes: a pop takes the word and its tags, a push puts a word on its way when the FIFO has room, and
the word arrives at the end of the FIFO; an empty FIFO stalls a pop until a word has come. Model's choices in it: log
entries 16, 17. -/
def Obligations.FifoOpcodes : Prop :=
  ∀ (sub : Sub) (dn dg : Dreg) (an : Areg) (f : BitVec 2) (eop odd : Bool) (k : Nat) (w : FWord) (s : State),
    let i := bare sub
    let c := ctx sub.toNat s
    let s0 := modSch sub.toNat (fun x => { x with runaway := 0 }) s
    (ready sub s = true → fifoNamed sub.toNat (getD dg.toNat c) f.toNat false s = some k →
      (fifoHead k s = some w →
        exec (.fpop i dn dg f) s =
          .next (done s (ran sub 3 (withFlags i (popAlu w) (setD dn.toNat w.w c)) (fifoTake k s0))) ∧
        (∀ key, placesAt sub (bankAddrs i an.toNat (getA an.toNat c).toNat 1 c) [key] s →
          exec (.fpops i an dg f) s = .next (done s (ran sub 3
            (withFlags i (popAlu w) (setA an.toNat (getA an.toNat c + 1) (posting sub [key] [w.w] c s)))
            (fifoTake k (storeIssued sub s0)))))) ∧
      (fifoHead k s = none → ∃ u, exec (.fpop i dn dg f) s = .next (done s u) ∧
        (ctx sub.toNat u).stall = .pop i false dn.toNat k ∧ (ctx sub.toNat u).pc = c.pc)) ∧
    (ready sub s = true → fifoNamed sub.toNat (getD dg.toNat c) f.toNat true s = some k →
      (fifo k s).rsvFree = 0 → inFlight k sub.toNat c s < fifoFree k s →
        exec (.fpush i dg f dn eop odd) s = .next (done s (ran sub 3
          { c with pushes := [{ fifo := k, word := getD dn.toNat c, eop := eop, odd := odd }] } s0)) ∧
        (∀ key v, placesAt sub (bankAddrs i an.toNat (getA an.toNat c).toNat 1 c) [key] s → loadsAt sub [key] [v] s →
          ∃ u, exec (.fpushs i dg f an eop odd) s = .next (done s u) ∧
            awaits sub 3 { setA an.toNat (getA an.toNat c + 1) c with
              pushes := [{ fifo := k, word := v, eop := eop, odd := odd }] } s u)) ∧
    (up s = true → c.stall = .none → ∀ p ps, c.pushes = p :: ps → txdCut p.fifo s = false →
      (fifo p.fifo s).dropping = false →
      exec (.fifoPushArrival sub) s = .next (done s
        (modFifo p.fifo (fun x => { x with q := x.q ++ [{ w := p.word, eop := p.eop, odd := p.odd }] })
          (modCtx sub.toNat (fun x => { x with pushes := ps }) s)))) ∧
    (up s = true → c.stall = .pop i false dn.toNat k → c.rep = none → c.loops = [] → c.step1 = false →
      specOf sub.toNat s = none → (s.loads.find? fun kv => kv.1 == sub.toNat) = none → fifoHead k s = some w →
      ∃ u, exec (.fifoPopComplete sub) s = .next (done s u) ∧ getD dn.toNat (ctx sub.toNat u) = w.w ∧
        (ctx sub.toNat u).stall = .none ∧ (ctx sub.toNat u).pc = c.pc + 3 ∧ (fifo k u).q = (fifo k s).q.drop 1)

/-- R71, R154, R190, R194: pin opcodes. -/
def Obligations.PinOpcodes : Prop :=
  ∀ (sub : Sub) (dn dp : Dreg) (ek : Ereg) (a : BitVec 2) (p : Nat) (s : State), ready sub s = true →
    let i := bare sub
    let c := ctx sub.toNat s
    pinNamed sub.toNat (getD dp.toNat c) s = some p →
    (a ≠ 3 → (pin p s).fq.length + (pin p s).flying.length < 32 →
      exec (.fire i dp ek a) s = .next (done s (ran sub 3 c (modPin p (fun q => { q with
        flying := q.flying ++ [{ time := (getE ek.toNat c).toNat, act := a, sub := some sub.toNat }] }) s)))) ∧
    (a ≠ 3 → exec (.pinw i dp a) s = .next (done s (ran sub 3 c (modPin p (fun q => { q with pinw := q.pinw ++ [a] })
      (modSch sub.toNat (fun x => { x with runaway := 0 }) s))))) ∧
    exec (.pinr i dn dp) s = .next (done s (ran sub 2 (setD dn.toNat (if (pin p s).lvl then 1 else 0) c) s)) ∧
    exec (.pints i ek dp) s = .next (done s (ran sub 2 (setE ek.toNat (pin p s).stamp c) s))

/-- R185 to R191, R194, R200, R201, R339: the pin engines' happenings and the FIFO commands. Model's choices in it: log
entries 6, 39, 40, 93. -/
def Obligations.PinEngines : Prop :=
  ∀ (src : Src) (g : GrateNo) (p : DevPin) (f : FifoId) (v : Word) (x : W64) (gc : BitVec 9) (s : State), up s = true →
    let checked : State := modPin p.toNat (fun q => { q with check := none }) s
    exec (.grateOwnerRequest src g v) s = .next (done s (setRg (bGrt g.toNat) 0 (v &&& 0x3F)
      (modGrate g.toNat (fun y => { y with ownReq := some (BitVec.ofNat 6 (fld v 5 0)) })
        (cfgNote src (ra (bGrt g.toNat) 0) v s)))) ∧
    (∀ l, l ≠ (pin p.toNat s).lvl → gc.toNat ≤ pinFilt p.toNat s →
      exec (.pinEdgeAccepted p ⟨l, false⟩ x gc) s = .next (done s (count (bGrt (p.toNat / 16)) 0x406 s))) ∧
    (∀ l, l ≠ (pin p.toNat s).lvl → l ≠ (pin p.toNat s).dlvl → pinFilt p.toNat s < gc.toNat → pinCfg p.toNat s = 0 →
      pinSkew p.toNat s = 0 → (grate (p.toNat / 16) s).hold = none → (∀ kr ∈ s.rules, kr.2.inForce = false) →
      exec (.pinEdgeAccepted p ⟨l, false⟩ x gc) s = .next (done s (modPin p.toNat (fun q => { q with dlvl := l })
        (modPin p.toNat (fun q => { q with lvl := l, stamp := x }) (reachFine x.toNat s))))) ∧
    (∀ e rest, (pin p.toNat s).flying = e :: rest → e.tent = false → x.toNat + 32 ≤ e.time → (pin p.toNat s).fq = [] →
      exec (.fireArrival p x) s = .next (done s (modPin p.toNat (fun q => { q with fq := [e] })
        (let t := modPin p.toNat (fun q => { q with flying := rest }) s
         { t with ft := { t.ft with dtb := max t.ft.dtb (x.toNat / 16) } })))) ∧
    (∀ e, (pin p.toNat s).fq = [e] → e.tent = false → (pin p.toNat s).late = [] → (pin p.toNat s).lastAct = none →
      s.safe.on = false → ∃ u, exec (.fireQueueFire p) s = .next (done s u) ∧ (pin p.toNat u).fq = [] ∧
        (pin p.toNat u).lastAct = some (ballTime p.toNat e.time s) ∧
        (pin p.toNat u).oe = (e.act == 0 || (e.act == 1 && !pinOd p.toNat s)) ∧
        (e.act ≠ 2 → (pin p.toNat u).out = (e.act == 1)) ∧ u.ft.dtb = max s.ft.dtb (ballTime p.toNat e.time s / 16)) ∧
    (∀ a rest, (pin p.toNat s).pinw = a :: rest → s.safe.on = false →
      ((pin p.toNat s).lastBy ≤ 1 → ∃ u, exec (.pinWriteEffect p) s = .next (done s u) ∧
        (pin p.toNat u).pinw = rest ∧ (pin p.toNat u).lastAct = some (16 * s.ft.dtb) ∧
        (a ≠ 2 → (pin p.toNat u).out = (a == 1)) ∧ (a = 2 → (pin p.toNat u).oe = false)) ∧
      ((pin p.toNat s).lastBy = 2 → (pin p.toNat s).lastAct = some (16 * s.ft.dtb) → exec (.pinWriteEffect p) s =
        .next (done s (modPin p.toNat (fun q => { q with pinw := rest }) s)))) ∧
    (∀ b, (pin p.toNat s).check = some b → (grate (p.toNat / 16) s).hold = none →
      exec (.pinReadbackCheck p b) s = .next (done s checked) ∧
      (pinForced p.toNat s = false → pinRetired p.toNat s = false → exec (.pinReadbackCheck p (!b)) s = .next (done s
        (raise (bGrt (p.toNat / 16)) 6 (wd (p.toNat % 16))
          (setRg (bGrt (p.toNat / 16)) 8 (wd (0x8000 + p.toNat % 16)) checked))))) ∧
    (fifoIsLane (FifoId.idx f) = false →
      exec (.fifoFlush src f) s =
        .next (done s (modFifo (FifoId.idx f) (fun y => { y with
          q := y.q.take y.rsv, dropping := false, part := y.part && !(y.q.drop y.rsv).any fun w => w.eop }) s)) ∧
      ((fifo (FifoId.idx f) s).q = [] → (fifo (FifoId.idx f) s).dropping = false → (fifo (FifoId.idx f) s).part = false →
        ∃ u, exec (.fifoDrop src f) s = .next (done s u) ∧ (fifo (FifoId.idx f) u).dropping = true ∧
          (fifo (FifoId.idx f) u).q = [])) ∧
    (∀ b : BitVec 4, (9 * vioMv b.toNat s ≤ 10 * v.toNat → 10 * v.toNat ≤ 11 * vioMv b.toNat s →
        exec (.bankSupplyMismatch ⟨b, v⟩) s = .next (done s (setRg 7 (0x120 + b.toNat) v s))) ∧
      (10 * v.toNat < 9 * vioMv b.toNat s ∨ 11 * vioMv b.toNat s < 10 * v.toNat →
        ∃ u, exec (.bankSupplyMismatch ⟨b, v⟩) s = .next (done s u) ∧ rg 7 (0x120 + b.toNat) u = v ∧
          .fault (bGrt (4 * b.toNat)) 0 true false 0 false ∈ u.due))

/-! ### Sequencers -/

/-- R204, R205, R208, R391: the sequencer's controls. Model's choices in it: log entries 44, 71. -/
def Obligations.SequencerControls : Prop :=
  ∀ (src : Src) (g : GrateNo) (b : Byte) (o : BitVec 10) (v : Word) (s : State), up s = true →
    ((grate g.toNat s).run = false →
      (booted s = true → exec (.seqKick src g b) s = .next (done s (modGrate g.toNat (fun x => { x with
        run := true, pc := b, npc := b, stack := [], hold := none, posted := false, tgtOver := false
        tgt := match src with | .stoker sub => some sub.toNat | _ => none }) s))) ∧
      (o.toNat % 4 ≠ 3 → exec (.sqUwWrite src g o v) s = .next (done s (setRg (bGrt g.toNat) (0x1000 + o.toNat) v
        (cfgNote src (ra (bGrt g.toNat) (0x1000 + o.toNat)) v s))))) ∧
    ((grate g.toNat s).run = true → (grate g.toNat s).kPend = [] → (∀ p fr t bt e, (grate g.toNat s).hold ≠ some (.cho p fr t bt e)) →
      exec (.seqStop src g) s = .next (done s (modGrate g.toNat (fun x => { x with run := false })
        (modGrate g.toNat (fun x => { x with hold := none, kPend := [] }) s)))) ∧
    exec (.sqBt0Write src g v) s =
      .next (done s (stageHigh src (ra (bGrt g.toNat) 0x306) v (cfgNote src (ra (bGrt g.toNat) 0x306) v s))) ∧
    ((s.staged.find? fun kv => kv.1 == stageKey src (ra (bGrt g.toNat) 0x306)) = none →
      rg (bGrt g.toNat) 0x306 s = 0 → 20 ≤ v.toNat → ∃ u, exec (.sqBt1Write src g v) s = .next (done s u) ∧
        rg (bGrt g.toNat) 0x306 u = 0 ∧ rg (bGrt g.toNat) 0x307 u = v)

/-- R206: microoperations on K registers and flags: the K register takes the result, Z and C follow, and the sequencer goes
to the next word. Their other fields are 0. Model's choices in it: log entry 13. -/
def Obligations.MicroArithmetic : Prop :=
  ∀ (g : GrateNo) (ka kb : BitVec 3) (imm : Word) (s : State),
    let n := g.toNat
    let k := seqK n ka.toNat s
    let u : Micro := { ka := ka, imm := imm }
    let ua : Micro := { ka := ka }
    let t := advanced g s
    let kz (v : Word) (x : State) : State := seqSetF n 7 (v == 0) (setK n ka.toNat v x)
    (reaches g 0x00 {} s = true → exec (.seqNop g {}) s = .next (done s t)) ∧
    (reaches g 0x04 ua s = true → exec (.smp g ua) s = .next (done s (kz (seqLevels n s) t))) ∧
    (reaches g 0x08 u s = true → exec (.ldi g u) s = .next (done s (setK n ka.toNat imm t))) ∧
    (reaches g 0x09 { ka := ka, kb := kb } s = true → exec (.seqMov g { ka := ka, kb := kb }) s =
      .next (done s (setK n ka.toNat (seqK n kb.toNat s) t))) ∧
    (reaches g 0x0A u s = true → exec (.addi g u) s =
      .next (done s (seqSetF n 6 (decide (65536 ≤ k.toNat + imm.toNat)) (kz (k + imm) t)))) ∧
    (reaches g 0x0B u s = true → exec (.andi g u) s = .next (done s (kz (k &&& imm) t))) ∧
    (reaches g 0x0C u s = true → exec (.ori g u) s = .next (done s (kz (k ||| imm) t))) ∧
    (reaches g 0x0D u s = true → exec (.xori g u) s = .next (done s (kz (k ^^^ imm) t))) ∧
    (reaches g 0x0E u s = true → exec (.cmpi g u) s =
      .next (done s (seqSetF n 6 (decide (k.toNat < imm.toNat)) (seqSetF n 7 (k == imm) t)))) ∧
    (reaches g 0x0F u s = true → imm &&& 0x7FF0 = 0 → exec (.shk g u) s =
      .next (done s (kz (if bit imm 15 then k >>> fld imm 3 0 else k <<< fld imm 3 0) t))) ∧
    (reaches g 0x1F { imm := imm } s = true → imm &&& 0xFF01 = 0 → exec (.clrf g { imm := imm }) s =
      .next (done s (modGrate n (fun x => { x with flags := x.flags &&& ~~~(imm.setWidth 8) }) t))) ∧
    (reaches g 0x1C { ka := ka, imm := imm } s = true → imm.toNat < 3 →
      let hi : Byte := (k >>> 8).setWidth 8
      let lo : Byte := k.setWidth 8
      let c := (if imm = 0 then [hi] else if imm = 1 then [lo] else [hi, lo]).foldl (crcByte (rg (bGrt n) 0x309 s))
        (rg (bGrt n) 0x30A s)
      exec (.crc g { ka := ka, imm := imm }) s = .next (done s (seqSetF n 7 (c == 0) (setRg (bGrt n) 0x30A c t))))

/-- R206, R207: microoperations that move the sequencer: branches, calls, returns, loops, and the words that hold, with
the end of each hold. R205, R206: a microword with a bad parity, a reserved field or value, or in the store a reserved OP
halts the sequencer and is not executed. Model's choices in it: log entries 13, 43. -/
def Obligations.MicroControl : Prop :=
  (∀ (g : GrateNo) (ka kb : BitVec 3) (tgt : Byte) (imm : Word) (p cc : BitVec 4) (s : State),
     let n := g.toNat
     let t := advanced g s
     let go (a : Byte) (x : State) : State := modGrate n (fun y => { y with npc := a }) x
     let hold (h : Hold) : State := modGrate n (fun x => { x with hold := some h }) t
     let u : Micro := { p := p, cc := cc, t := tgt }
     let f (i : Nat) : Bool := bit (grate n s).flags i
     let lvl := (pin (16 * n + p.toNat) s).lvl
     let holds := [true, f 7, !(f 7), f 6, !(f 6), f 5, !(f 5), f 4, !(f 4), f 3, f 1, f 2, lvl, !lvl, f 0].getD cc.toNat false
     (cc ≠ 15 → (cc ≠ 12 → cc ≠ 13 → p = 0) →
       (reaches g 0x16 u s = true → exec (.br g u) s = .next (done s (if holds then go tgt t else t))) ∧
       (reaches g 0x17 u s = true → (grate n s).stack.length < 4 → exec (.seqCall g u) s = .next (done s
         (if holds then go tgt (modGrate n (fun x => { x with stack := (x.pc + 1) :: x.stack }) t) else t)))) ∧
     (∀ a r, reaches g 0x18 {} s = true → (grate n s).stack = a :: r → exec (.seqRet g {}) s =
       .next (done s (go a (modGrate n (fun x => { x with stack := r }) t)))) ∧
     (reaches g 0x19 { ka := ka, t := tgt } s = true → exec (.djnz g { ka := ka, t := tgt }) s = .next (done s
       (let v := seqK n ka.toNat s - 1
        let x := seqSetF n 7 (v == 0) (setK n ka.toNat v t)
        if v = 0 then x else go tgt x))) ∧
     (imm ≠ 0 → reaches g 0x05 { imm := imm } s = true → exec (.seqWait g { imm := imm }) s = .next (done s (hold .wait))) ∧
     (kb.toNat < 3 → reaches g 0x06 { p := p, kb := kb, imm := imm } s = true →
       exec (.wedge g { p := p, kb := kb, imm := imm }) s = .next (done s (hold (.wedge p kb (imm != 0) false)))) ∧
     (reaches g 0x07 { ka := ka, kb := kb, imm := imm } s = true → exec (.wlvl g { ka := ka, kb := kb, imm := imm }) s =
       .next (done s (if seqLevels n s &&& seqK n kb.toNat s = seqK n ka.toNat s then seqSetF n 5 false t
         else hold (.wlvl (seqK n kb.toNat s) (seqK n ka.toNat s) (imm != 0) false)))) ∧
     (reaches g 0x1E {} s = true → exec (.wtick g {}) s = .next (done s (hold .wtick))) ∧
     (reaches g 0x20 {} s = true → exec (.seqHalt g {}) s = .next (done s
       (setRgBit (bGrt n) 0x303 2 true (modGrate n (fun x => { x with run := false, hold := none }) t)))) ∧
     (up s = true → ∀ at_ : W64,
       let ends (b : Bool) := exec (.seqHoldEnd g (grate n s).pc b at_) s
       let r := reachFine at_.toNat s
       let free (x : State) : State := modGrate n (fun y => { y with hold := none, kPend := [] }) x
       (∀ c b, c ≠ (grate n s).pc → exec (.seqHoldEnd g c b at_) s = .next (done s s)) ∧
       ((grate n s).kPend = [] →
         ((grate n s).hold = some .wait → ∀ b, ends b = .next (done s (free r))) ∧
         (∀ lim met, (grate n s).hold = some (.wedge p kb lim met) →
           (met = true → ∀ b, ends b = .next (done s (free (seqSetF n 5 false r)))) ∧
           (met = false → lim = true → ends true = .next (done s (free (seqSetF n 5 true r))))) ∧
         (∀ mask val lim met, (grate n s).hold = some (.wlvl mask val lim met) →
           ((met = true ∨ seqLevels n s &&& mask = val) → ∀ b, ends b = .next (done s (free (seqSetF n 5 false r)))) ∧
           (met = false → seqLevels n s &&& mask ≠ val → lim = true →
             ends true = .next (done s (free (seqSetF n 5 true r))))) ∧
         (∀ q a c, (grate n s).hold = some (.fqw q a c) →
           (pin (16 * n + q.toNat) s).fq.length + (pin (16 * n + q.toNat) s).flying.length < 32 → ∀ b,
           ends b = .next (done s (modPin (16 * n + q.toNat) (fun y => { y with
             flying := y.flying ++ [{ time := c, act := a }] }) (free r))))) ∧
       (∀ i w, (grate n s).hold = some .wait → (grate n s).kPend = [(i, w)] → i < 8 → ∃ v,
         ends false = .next (done s v) ∧ seqK n i v = w ∧ (grate n v).hold = none))) ∧
  (∀ x ∈ microTable, ∀ (g : GrateNo) (u : Micro) (s : State), up s = true → (grate g.toNat s).run = true →
     (grate g.toNat s).hold = none → (grate g.toNat s).tgt = none →
     let n := g.toNat
     let halt (b : Nat) : State := setRgBit (bGrt n) 0x303 b true
       (modGrate n (fun y => { y with run := false, hold := none }) (modGrate n (fun y => { y with pc := y.npc }) s))
     (u.parityOk = true → 0x20 < (microAt n (grate n s).npc s).toNat / 2 ^ 42 →
       exec (x.1 g u) s = .next (done s (raise (bGrt n) 4 0 (halt 4)))) ∧
     (u.parityOk = true → microAt n (grate n s).npc s = microBits x.2.1 u → namesOk (x.2.2.1 u) u = false ∨ x.2.2.2 u = false →
       exec (x.1 g u) s = .next (done s (raise (bGrt n) 4 0 (halt 4)))) ∧
     (u.parityOk = false → microAt n (grate n s).npc s = microBits x.2.1 u →
       ∃ v, exec (x.1 g u) s = .next (done s v) ∧ (grate n v).run = false ∧ (grate n v).pc = (grate n s).npc ∧
         bit (rg (bGrt n) 0x303 v) 5 = true ∧ (∀ i, i < 8 → seqK n i v = seqK n i s) ∧ v.pins = s.pins ∧ v.fifos = s.fifos))

/-- R195, R199, R206, R208, R209: microoperations on pins, FIFOs, the shift unit, posts, events and fire queues. Model's
choices in it: log entries 13, 43. -/
def Obligations.MicroPins : Prop :=
  ∀ (g : GrateNo) (ka : BitVec 3) (p : BitVec 4) (imm : Word) (s : State),
    let n := g.toNat
    let t := advanced g s
    let u : Micro := { p := p, ka := ka, imm := imm }
    let now := 16 * s.ft.dtb
    let hold (h : Hold) (x : State) : State := modGrate n (fun y => { y with hold := some h }) x
    let k := seqK n ka.toNat s
    let cfg := shCfg n s
    let inv := bit cfg 10
    let bt := seqBt n s
    let w (e : Bool) (o : Bool) : FWord := { w := k, eop := e, odd := o }
    (reaches g 0x01 { p := p, imm := imm } s = true → imm.toNat < 3 → exec (.drv g { p := p, imm := imm }) s =
      .next (done s (pinAct (16 * n + p.toNat) imm.toNat now 0 t))) ∧
    (p.toNat < 4 → imm.toNat < 2 → reaches g 0x01 { p := p, imm := imm + 16 } s = true → bit (pinCfg (16 * n) s) 6 = true →
      exec (.drv g { p := p, imm := imm + 16 }) s = .next (done s (modGrate n (fun x => { x with
        dirLvl := (x.dirLvl &&& ~~~(BitVec.ofNat 4 (1 <<< p.toNat))) ||| BitVec.ofNat 4 (imm.toNat <<< p.toNat) }) t))) ∧
    (reaches g 0x02 { ka := ka, imm := imm } s = true → exec (.drvm g { ka := ka, imm := imm }) s =
      .next (done s (forAll ((span 0 16).filter fun i => bit imm i) (fun i => seqAct n i (b2n (bit k i))) t))) ∧
    (reaches g 0x03 { ka := ka, imm := imm } s = true → exec (.oem g { ka := ka, imm := imm }) s =
      .next (done s (forAll ((span 0 16).filter fun i => bit imm i)
        (fun i x => seqAct n i (if bit k i then b2n (pin (16 * n + i) x).out else 2) x) t))) ∧
    (p.toNat < 4 → fifoHead (8 * n + 4 + p.toNat) s = none →
      (reaches g 0x10 { p := p, ka := ka, imm := 1 } s = true → exec (.seqPop g { p := p, ka := ka, imm := 1 }) s =
        .next (done s (hold (.pop (p.setWidth 2) ka) t))) ∧
      (reaches g 0x10 { p := p, ka := ka } s = true → (fifo (8 * n + 4 + p.toNat) s).mid = false →
        ∃ v, exec (.seqPop g { p := p, ka := ka }) s = .next (done s v) ∧ seqF n 2 v = true ∧ v.regs = s.regs)) ∧
    (∀ x, p.toNat < 4 → reaches g 0x10 { p := p, ka := ka } s = true → fifoHead (8 * n + 4 + p.toNat) s = some x →
      ∃ v, exec (.seqPop g { p := p, ka := ka }) s = .next (done s v) ∧ seqK n ka.toNat v = x.w ∧
        (fifo (8 * n + 4 + p.toNat) v).q = (fifo (8 * n + 4 + p.toNat) s).q.drop 1 ∧
        seqF n 4 v = x.eop ∧ seqF n 3 v = x.odd ∧ seqF n 2 v = false) ∧
    (p.toNat < 4 → imm.toNat < 4 → reaches g 0x11 u s = true → (fifo (8 * n + p.toNat) s).dropping = false →
      fifoFree (8 * n + p.toNat) s ≠ 0 → exec (.seqPush g u) s = .next (done s
        (modFifo (8 * n + p.toNat) (fun f => { f with q := f.q ++ [w (bit imm 1) (bit imm 0)] }) t))) ∧
    (imm.toNat < 2 → reaches g 0x12 u s = true →
      let frame := (charFrame cfg (choChar k (bit imm 0))).map fun b => b != inv
      exec (.cho g u) s = .next (done s (hold (.cho p frame s.ft.dtb bt (if bit cfg 11 then
          some { pin := BitVec.ofNat 4 (fld cfg 15 12), next := 16 * (s.ft.dtb + bt / 2), step := 16 * bt, left := frame.length }
        else none)) (pinAct (16 * n + p.toNat) (b2n inv) now 0 t)))) ∧
    (reaches g 0x13 u s = true → exec (.chi g u) s = .next (done s (hold (.chi ka p (imm != 0) cfg bt none) t))) ∧
    (imm.toNat < 16 → reaches g 0x14 u s = true → exec (.sho g u) s = .next (done s
      (hold (.cho p ((span 0 (imm.toNat + 1)).reverse.map fun i => bit k i != inv) s.ft.dtb bt none)
        (pinAct (16 * n + p.toNat) (b2n (bit k imm.toNat != inv)) now 0 t)))) ∧
    (imm.toNat < 16 → reaches g 0x15 u s = true → exec (.shi g u) s = .next (done s
      (hold (.shi ka (imm.toNat + 1) inv { pin := p, next := now, step := 16 * bt, left := imm.toNat + 1 }) t))) ∧
    (∀ sub, reaches g 0x1A { ka := ka, imm := imm } s = true → imm.toNat < 512 → (grate n s).tgt = some sub →
      (grate n s).tgtOver = false → exec (.seqPost g { ka := ka, imm := imm }) s = .next (done s
        (modSch sub (fun x => { x with
          arriving := x.arriving ++ [(if bit imm 8 then k.setWidth 8 else imm.setWidth 8, false)] })
          (modGrate n (fun y => { y with posted := true }) t)))) ∧
    (imm.toNat < 4 → reaches g 0x1B { imm := imm } s = true → exec (.evt g { imm := imm }) s =
      .next (done s (grateEdge n imm.toNat t))) ∧
    (imm.toNat < 3 → reaches g 0x1D u s = true →
      let m := (pin (16 * n + p.toNat) s).fq.length + (pin (16 * n + p.toNat) s).flying.length
      (m < 32 → exec (.fqw g u) s = .next (done s (modPin (16 * n + p.toNat) (fun q => { q with
        flying := q.flying ++ [{ time := now + k.toNat, act := imm.setWidth 2 }] }) t))) ∧
      (32 ≤ m → exec (.fqw g u) s = .next (done s (hold (.fqw p (imm.setWidth 2) (now + k.toNat)) t))))

/-! ### The damper -/

/-- R214 to R223: damper rules: arming stores the words, which take effect later and all at once; a rule in force whose
condition comes true trips, is counted and stamped; a held rule is released on request; LOCK refuses every write. Model's
choices in it: log entries 45, 71, 94, 116. -/
def Obligations.DamperRules : Prop :=
  ∀ (src : Src) (r : RuleNo) (v : Word) (s : State), up s = true →
    let w := v ||| 0x8000
    let n := r.toNat
    let x := rule n s
    let note (d : Word) : State := cfgNote src (ra 0xA (0x1000 + 16 * n)) d s
    let put (d : Word) (t : State) : State :=
      modRule n (fun y => { y with changed := true, parity := false }) (setRg 0xA (0x1000 + 16 * n) d t)
    (dmpLocked s = false →
      (armBad [w, ruleW n 1 s, ruleW n 2 s] = false → exec (.ruleArm src r v) s = .next (done s (put (w &&& 0xFF80) (note w)))) ∧
      (armBad [w, ruleW n 1 s, ruleW n 2 s] = true → ∃ u, exec (.ruleArm src r v) s = .next (done s u) ∧
        bit (rg 0xA 1 u) 6 = true ∧ bit (ruleW n 0 u) 15 = bit (ruleW n 0 s) 15 ∧ (rule n u).inForce = x.inForce ∧
        (rule n u).tripped = x.tripped) ∧
      (fld v 11 10 ≠ 3 → bit (ruleW n 0 s) 15 = false →
        exec (.ruleDisarm src r v) s = .next (done s (put (v &&& 0x7F80) (note (v &&& 0x7FFF))))) ∧
      (fld v 11 10 ≠ 3 → bit (ruleW n 0 s) 15 = true → ruleHeld x = false → ∃ u,
        exec (.ruleDisarm src r v) s = .next (done s u) ∧ (rule n u).inForce = false ∧ (rule n u).tripped = false ∧
          rg 0xA (0x1000 + 16 * n) u = v &&& 0x7F80) ∧
      (fld v 11 10 ≠ 3 → bit (ruleW n 0 s) 15 = true → ruleHeld x = true →
        exec (.ruleDisarm src r v) s = .next (done s (setRgBit 0xA 1 6 true (note (v &&& 0x7FFF)))))) ∧
    (dmpLocked s = true → exec (.ruleArm src r v) s = .next (done s (setRgBit 0xA 1 5 true (note w))) ∧
      exec (.ruleDisarm src r v) s = .next (done s (setRgBit 0xA 1 5 true (note (v &&& 0x7FFF))))) ∧
    (x.changed = true →
      let ws := (span 0 5).map fun j => ruleW n j s
      (bit (ruleW n 0 s) 15 = false → exec (.ruleWriteEffect r) s = .next (done s
        (modRule n (fun y => { y with changed := false, inForce := false, w := ws }) s))) ∧
      (bit (ruleW n 0 s) 15 = true → levelCond ws s = false → ∃ u, exec (.ruleWriteEffect r) s = .next (done s u) ∧
        rule n u = { x with changed := false, inForce := true, w := ws, seen := none, fell := false
                            tripped := x.tripped && (bit (nth ws 0) 14 || x.stuck) } ∧ u.regs = s.regs) ∧
      (bit (ruleW n 0 s) 15 = true → levelCond ws s = true → x.tripped = false → fld (nth ws 0) 11 10 = 0 → ∃ u,
        exec (.ruleWriteEffect r) s = .next (done s u) ∧ (rule n u).tripped = true ∧ (rule n u).inForce = true ∧
        rgs 0xA (0x1008 + 16 * n) 4 u = 16 * s.ft.dtb % 2 ^ 64)) ∧
    (∀ (a : W64) t, x.inForce = true → x.seen = some t → x.fell = false → x.tripped = false → s.safe.on = false →
      fld (nth x.w 0) 11 10 ≠ 3 → ∃ u, exec (.damperRuleTrip r a) s = .next (done s u) ∧ (rule n u).tripped = true ∧
        rgs 0xA (0x1008 + 16 * n) 4 u = t % 2 ^ 64 ∧
        rgs 0xA (0x1006 + 16 * n) 2 u = (rgs 0xA (0x1006 + 16 * n) 2 s + 1) % 2 ^ 32 ∧
        (bit (nth x.w 0) 7 = true → rg 0xA 3 u = wd (0x8000 + n) ∧ .fault 0xA 0 true false 0 false ∈ u.due) ∧
        (fld (nth x.w 0) 11 10 ≠ 2 → u.safe = s.safe) ∧
        (fld (nth x.w 0) 11 10 = 2 → u.safe = { on := true, cause := 2, rule := some n })) ∧
    (x.fell = true → exec (.ruleConditionFalse r) s = .next (done s (modRule n (fun y => { y with
      fell := false, tripped := y.tripped && (bit (nth y.w 0) 14 || y.stuck) }) s))) ∧
    (ruleHeld x = true → levelCond x.w s = false → x.seen = none → exec (.ruleReleaseRequest src r) s =
      .next (done s (modRule n (fun y => { y with relReq := true }) s))) ∧
    (ruleHeld x = true → levelCond x.w s = true →
      exec (.ruleReleaseRequest src r) s = .next (done s (setRgBit 0xA 1 6 true s))) ∧
    (x.relReq = true → levelCond x.w s = false → x.seen = none → exec (.ruleReleaseEffect r) s = .next (done s
      (modRule n (fun y => { y with relReq := false, tripped := y.parity, stuck := y.parity }) s))) ∧
    exec (.damperLock src) s = .next (done s (setRgBit 0xA 0 0 true (cfgNote src (ra 0xA 0) 1 s))) ∧
    (x.inForce = false → bit (ruleW n 0 s) 15 = false → exec (.ruleParityError r) s = .next (done s
      (raise 0xA 1 0 (setRgBit 0xA 1 4 true s)))) ∧
    (x.inForce = true ∨ bit (ruleW n 0 s) 15 = true → ∃ u, exec (.ruleParityError r) s = .next (done s u) ∧
      (rule n u).tripped = true ∧ (rule n u).stuck = true ∧ bit (rg 0xA 1 u) 4 = true ∧
      .fault 0xA 1 true false 0 false ∈ u.due)

/-- R224 to R226, R343, R344: safe state: SAFE_N, the loss of the timebase and a tripped rule with ACTION 2 enter it, with
every sequencer stopped and every fire queue empty; SAFE_CLEAR ends it when nothing asks for it. Model's choices in it: log
entries 46, 71. -/
def Obligations.SafeState : Prop :=
  ∀ (src : Src) (s : State), up s = true →
    (s.safe.on = false →
      (∃ u, exec .safeNAsserted s = .next (done s u) ∧ u.safe.on = true ∧ u.safe.cause = 1 ∧ u.pwr.safeN = false ∧
        (∀ g, (grate g u).run = false) ∧ (∀ p, (pin p u).fq = [])) ∧
      (∃ u, exec .timebaseLoss s = .next (done s u) ∧ u.safe.on = true ∧ u.safe.cause = 4 ∧ u.pwr.pll = false ∧
        u.pwr.tbLost = true)) ∧
    exec .safeNRelease s = .next (done s { s with pwr := { s.pwr with safeN := true } }) ∧
    (s.safe.on = true → s.pwr.safeN = true → s.pwr.tbLost = false → safeRuleOn s = false → s.sch = [] → s.chans = [] →
      s.stk = [] → s.fc.soot = [] → exec (.safeClear src 1) s = .next (done s
        (let t := cfgNote src (ra 6 4) 1 s
         { t with safe := {}, fc := { t.fc with soot := [{ w0 := wd s.safe.cause, w1 := 0x600A, dtb := s.ft.dtb }] } })))

/-! ### Channel programs -/

/-- R47 to R52, R73, R74, R79: the eight operations on a subchannel that accepts them, each through the operation port of
its stoker, with the result kept for its source; a write narrower than the operation; and the results by the state of the
subchannel, where a refused operation changes nothing. Model's choices in it: log entries 30, 32, 33, 88, 89. -/
def Obligations.ChannelOperations : Prop :=
  (∀ (src : Src) (sub : Sub) (addr : W32) (parm : Word) (path : BitVec 2) (k : StokerNo) (s : State), up s = true →
     (sch sub.toNat s).fwd = false →
     let x := sch sub.toNat s
     let res (op r : Nat) (t : State) : Host.Outcome State Fault Refusal :=
       .next (done s (oppPut (stkOf sub.toNat) src op r t))
     (x.st = .idle → addr.toNat % 8 = 0 → ctlOk sub.toNat addr.toNat s = true →
       (anyPath sub.toNat s = true → (lowPath sub.toNat s).isSome = true) →
       ∃ t, exec (.start src sub addr parm) s = res 1 0 t ∧ (sch sub.toNat t).st = .startPending ∧ (sch sub.toNat t).ccw = addr ∧
         (sch sub.toNat t).sparm = parm ∧ (sch sub.toNat t).hseq = 0 ∧
         (ctx sub.toNat t).run = (if (ctx sub.toNat s).stopped && !(ctx sub.toNat s).step1 then .stopped else .ready) ∧
         t.mem = s.mem ∧ t.regs = s.regs ∧ ∀ n, n ≠ sub.toNat → sch n t = sch n s ∧ ctx n t = ctx n s) ∧
     (x.st = .startPending → x.pfReq = false → ∃ t st, exec (.halt src sub) s = res 2 0 t ∧ (sch sub.toNat t).st = .statusPending ∧
       (sch sub.toNat t).held = x.held ++ [st] ∧ st.endc = 1 ∧ st.dstat = (if x.attn then 0x20 else 0) ∧ st.cstat = 0 ∧
       st.resid = 0 ∧ st.lastCcw = x.ccw ∧ t.mem = s.mem) ∧
     (x.st = .idle ∨ x.st = .statusPending → ∃ t st, exec (.clear src sub) s = res 3 0 t ∧ (sch sub.toNat t).st = .statusPending ∧
       (sch sub.toNat t).held = [st] ∧ st.endc = 4 ∧ st.dstat = 0 ∧ st.cstat = 0 ∧ st.resid = 0 ∧ t.mem = s.mem) ∧
     (x.st = .startPending ∨ x.st = .active → exec (.resume src sub) s =
       res 4 0 (modSch sub.toNat (fun y => { y with resumePend := true }) s)) ∧
     (x.st = .suspended → exec (.resume src sub) s =
       res 4 0 (setStep sub.toNat (.goto { addr := x.ccw, refetch := true })
         (modSch sub.toNat (fun y => { y with st := .active }) s))) ∧
     (x.st = .suspended → addr.toNat % 8 = 0 → ctlOk sub.toNat addr.toNat s = true → exec (.modify src sub addr) s =
       res 5 0 (modSch sub.toNat (fun y => { y with ccw := addr, words := [], lastResid := 0, look := [], prefetch := [] }) s)) ∧
     exec (.test src sub) s = res 6 0 s ∧
     (x.st ≠ .retired → pathUp sub.toNat path.toNat s = true → path ≠ x.curPath →
       (∃ m, m < 4 ∧ m ≠ path.toNat ∧ pathUp sub.toNat m s = true) →
       exec (.retirePath src sub path) s = res 7 0
         (setRgBit (bStk (stkOf sub.toNat)) (schOfs sub.toNat (8 + 2 * path.toNat)) 14 false s)) ∧
     (x.st ≠ .retired → pathValid sub.toNat path.toNat s = true →
       exec (.restorePath src sub path) s = res 8 0
         (setRgBit (bStk (stkOf sub.toNat)) (schOfs sub.toNat (8 + 2 * path.toNat)) 14 true s)) ∧
     exec (.operationMalformed src k) s = .next (done s (oppPut k.toNat src 0 8 s))) ∧
  (∀ (sub addr : Nat) (parm hseq : Word) (s : State), (sch sub s).fwd = false →
     let busy := (sch sub s).st = .startPending ∨ (sch sub s).st = .active ∨ (sch sub s).st = .suspended ∨ (sch sub s).st = .halted
     (busy → operate 1 sub addr parm hseq s = (1, s)) ∧
     ((sch sub s).st = .statusPending → ∀ op, op = 1 ∨ op = 2 ∨ op = 4 → operate op sub addr parm hseq s = (2, s)) ∧
     ((sch sub s).st = .retired → ∀ op, op = 1 ∨ op = 2 ∨ op = 3 ∨ op = 4 ∨ op = 5 ∨ op = 7 →
       operate op sub addr parm hseq s = (5, s)) ∧
     ((sch sub s).st = .idle → operate 2 sub addr parm hseq s = (3, s) ∧ operate 4 sub addr parm hseq s = (4, s) ∧
       operate 5 sub addr parm hseq s = (4, s) ∧ (addr % 8 ≠ 0 → operate 1 sub addr parm hseq s = (7, s))) ∧
     ((sch sub s).st = .idle → addr % 8 = 0 → ctlOk sub addr s = true → anyPath sub s = true → lowPath sub s = none →
       operate 1 sub addr parm hseq s = (6, s)))

/-- R56, R65, R71, R78, R82: what reaches a running channel program: the words of a fetched CCW, the instant of a timed one,
its timeout, room for its status, an advance of its cursor. Model's choices in it: log entries 6, 30. -/
def Obligations.ChannelSteps : Prop :=
  ∀ (src : Src) (sub : Sub) (v : Word) (s : State), up s = true →
    let x := sch sub.toNat s
    (∀ (f : FetchInfo) (ks : List Nat) (ws : List Word), x.phase = .fetch f →
      placesAt sub ((span f.addr.toNat 8).map fun a => a % 2 ^ 32) ks s → wordsAt ks ws s →
      exec (.ccwFetchComplete ⟨sub, 0⟩) s = .next (done s (setStep sub.toNat (.arrived f ws false) s))) ∧
    (x.phase = .timed → exec (.timedWaitExpiry sub) s = .next (done s (setStep sub.toNat .expired
      { s with ft := { s.ft with dtb := max s.ft.dtb (timedDue sub.toNat s) } }))) ∧
    (x.st = .active → x.pfReq = false → specOf sub.toNat s = none → fld (schCfg sub.toNat 6 s) 7 0 ≠ 0 →
      fld (schCfg sub.toNat 6 s) 7 0 < x.tmoTicks →
      ∃ t st, exec (.ccwTimeout sub) s = .next (done s t) ∧ (sch sub.toNat t).st = .statusPending ∧
        (sch sub.toNat t).held = x.held ++ [st] ∧ st.endc = 0 ∧ st.cstat = 0x04 ∧ st.resid = wd x.curCnt ∧ st.lastCcw = x.ccw) ∧
    (∀ st more, x.held = st :: more → exec (.statusPost sub) s = .next (done s (addDue (.post st.cq) s)) ∧
      (∀ rest, (cq st.cq s).waiting = .sub sub.toNat :: rest → cqRoom st.cq s = true → settleOne (.post st.cq) s =
        addDue (.post st.cq) (afterPost sub.toNat st (modSch sub.toNat (fun y => { y with held := more })
          (modCq st.cq (fun q => { q with waiting := rest }) (cqWrite st.cq st s)))))) ∧
    (x.phase = .proc → v ≠ 0 → exec (.schCurAdvWrite src sub v) s = .next (done s
      (addDue (.advance sub.toNat) (modSch sub.toNat (fun y => { y with advLeft := y.advLeft + v.toNat }) s)))) ∧
    exec (.schCurAdvWrite src sub 0) s = .next (done s s)

/-- R58: the chaining decision by the delivered status, where no halt and no path change waits: every row of its table. A
row 7 or 8 of a procedure CCW moves the prediction counter (R87). -/
def Obligations.ChainingDecision : Prop :=
  ∀ (sub : Nat) (d : Byte) (s : State),
    let x := sch sub s
    let ends (c : Word) (p : Byte) : State := endProgram sub 0 d c x.lastResid p x.lastAux (lookMiss sub s)
    (∀ c, c ≠ 0 → chain sub d c s = ends c 0) ∧
    (bit d 2 = true → bit d 1 = true → x.retries < fld (schCfg sub 5 s) 3 0 → chain sub d 0 s =
      setStep sub (.goto { addr := x.first })
        (schCount sub 0x1C (modSch sub (fun y => { y with retries := y.retries + 1, d5 := 2 }) (rewind sub (lookMiss sub s))))) ∧
    ((bit d 2 = true ∧ (bit d 1 = false ∨ fld (schCfg sub 5 s) 3 0 ≤ x.retries)) ∨
      (bit d 2 = false ∧ (bit d 3 = true ∨ bit d 4 = true)) → chain sub d 0 s = ends 0 0) ∧
    (bit d 2 = false → bit d 3 = false → bit d 4 = false →
      (bit d 0 = true → bit d 7 = false → chain sub d 0 s =
        setRun sub .ready (modSch sub (fun y => { y with phase := .yielded, gave := false }) (lookMiss sub s))) ∧
      (bit d 0 = bit d 7 → chain sub d 0 s = ends 0x400 0x13) ∧
      (bit d 0 = false → bit d 7 = true →
        (x.lastResid ≠ 0 → wFlag x.words 2 = false → x.lateEnd = false → chain sub d 0 s = ends 0x10 0) ∧
        ((x.lastResid = 0 ∨ wFlag x.words 2 = true ∨ x.lateEnd = true) →
          (wFlag x.words 1 = true ∨ wFlag x.words 0 = false → chain sub d 0 s = ends 0 0) ∧
          (wFlag x.words 1 = false → wFlag x.words 0 = true → wProc x.words = false → chain sub d 0 s =
            setStep sub (.goto { addr := x.ccw + (if bit d 6 then 16 else 8) }) (modSch sub (fun y => { y with d5 := 0 }) s)) ∧
          (wFlag x.words 1 = false → wFlag x.words 0 = true → wProc x.words = true → ∃ u, chain sub d 0 s =
              setStep sub (.goto { addr := x.ccw + (if bit d 6 then 16 else 8) }) u ∧ (sch sub u).d5 = 0 ∧
            (let p := fld (rg (bStk (stkOf sub)) (blwOfs sub 0) s) 1 0
             fld (rg (bStk (stkOf sub)) (blwOfs sub 0) u) 1 0 = if bit d 6 then min 3 (p + 1) else p - 1) ∧
            u.mem = s.mem ∧ u.ctx = s.ctx))))

/-- R83: the program checks of a CCW that is no part of a data chain come in the order of their codes. R61: the data
cursor moves n bytes within its segment by the CCW's address mode, and counts down. Model's choices in it: log entry 86.
-/
def Obligations.CcwChecksAndCursor : Prop :=
  (∀ (ws : List Word) (tic listOk tableOk : Bool) (ent : Word × Word),
     let r := progCheck ws false tic listOk tableOk ent
     let c := wCode ws
     (c = 1 → wDaddr ws % 8 ≠ 0 → r = some (0x400, 0x01)) ∧
     (c = 0 → r = some (0x400, 0x02)) ∧
     (6 ≤ c → c ≤ 15 → r = some (0x400, 0x03)) ∧
     (c = 1 → wDaddr ws % 8 = 0 → (fld (nth ws 0) 7 0 ≠ 0 → r = some (0x400, 0x04)) ∧
       (fld (nth ws 0) 7 0 = 0 → r = if tic then some (0x400, 0x05) else none)) ∧
     (2 ≤ c → (c ≤ 5 ∨ 16 ≤ c) → wFlag ws 1 = true → wFlag ws 0 = true → r = some (0x400, 0x06)) ∧
     (r = none → 16 ≤ c → wAmode ws ≠ 3 ∧ (wAmode ws = 2 → 4 ≤ wCsize ws) ∧ entOk ent = true ∧
       (wCount ws = 0 → bit ent.1 12 = true) ∧ (wFlag ws 1 = true → entDir ent ≠ 0) ∧ (wFlag ws 3 = true → entDir ent = 1) ∧
       (wFlag ws 4 = true → wAmode ws = 0 ∧ wDaddr ws % 2 = 0 ∧ listOk = true) ∧ tableOk = true)) ∧
  (∀ (sub n : Nat) (s : State),
     let x := sch sub s
     let y := sch sub (curMove sub n s)
     let pos := b2n x.curOdd + n
     y.curCnt = x.curCnt - n ∧ y.curOdd = (pos % 2 == 1) ∧
     (wAmode x.words = 0 → y.curAddr = BitVec.ofNat 32 (x.curAddr.toNat + pos / 2)) ∧
     (wAmode x.words = 1 → y.curAddr = x.curAddr) ∧
     (wAmode x.words = 2 → y.curAddr.toNat / 2 ^ wCsize x.words = x.curAddr.toNat / 2 ^ wCsize x.words ∧
       y.curAddr.toNat % 2 ^ wCsize x.words = (x.curAddr.toNat % 2 ^ wCsize x.words + pos / 2) % 2 ^ wCsize x.words) ∧
     (curMove sub n s).mem = s.mem ∧ ∀ k, k ≠ sub → sch k (curMove sub n s) = sch k s)

/-! ### Returns, the bellows and the stoker's own registers -/

/-- R69, R92, R93, R125, R129, R133: RETC and RETD hand the return to the channel, RETD with its status still to come or
already held; WAIT; TRAP is fault 0x10. Model's choices in it: log entries 21, 113. -/
def Obligations.ReturnOpcodes : Prop :=
  ∀ (sub : Sub) (ev : Bool) (s : State), ready sub s = true →
    let c := ctx sub.toNat s
    let x := sch sub.toNat s
    let b := bStk (stkOf sub.toNat)
    let ends (run : Run) (ph : Phase) (dl : Option (Byte × Bool)) (ns : Bool) (u : State) : Prop :=
      ctx sub.toNat u = { c with pc := c.pc + 1, run := run } ∧
      sch sub.toNat u = { x with phase := ph, lastResid := getD 1 c, lastAux := getD 2 c, delivered := dl, noSpec := ns } ∧
      rgs b 8 2 u = (rgs b 8 2 s + 1) % 2 ^ 32 ∧ (bit (rg b 0x10 s) 0 = false → u.mem = s.mem)
    (∃ u, exec (.retc (bare sub)) s = .next (done s u) ∧ ends .running
      (.step (if fld (getD 0 c) 15 8 = 0 then .ret ((getD 0 c).setWidth 8) false true else .invalid ((getD 0 c).setWidth 8)))
      x.delivered x.noSpec u) ∧
    (getD 0 c ≠ 0 → ∃ u, exec (.retd (bare sub)) s = .next (done s u) ∧
      ends .running (.step (.invalid ((getD 0 c).setWidth 8))) x.delivered x.noSpec u) ∧
    (getD 0 c = 0 → ∀ d pf, x.delivered = some (d, pf) → ∃ u, exec (.retd (bare sub)) s = .next (done s u) ∧
      ends .running (.step (.ret d pf true)) none x.noSpec u) ∧
    (getD 0 c = 0 → x.delivered = none → ∃ u, exec (.retd (bare sub)) s = .next (done s u) ∧
      ends .inactive .deferred none false u) ∧
    ((ev = false ∨ mget 0 (stkOf sub.toNat) s.presented = 0) → exec (.wait (bare sub) true ev) s = .next (done s
      (addDue (.resched (stkOf sub.toNat)) (modCtx sub.toNat (fun y => { y with
        run := .wait, waitTk := true, waitEv := ev, waitNext := some (c.pc + 2) }) s)))) ∧
    (mget 0 (stkOf sub.toNat) s.presented ≠ 0 → exec (.wait (bare sub) false true) s = .next (done s
      (addDue (.resched (stkOf sub.toNat)) (modCtx sub.toNat (fun y => { y with
        run := .ready, waitTk := false, waitEv := false, waitc := 1, waitNext := some (c.pc + 2) }) s)))) ∧
    (∀ a, settleOne (.turn sub.toNat) (modCtx sub.toNat (fun y => { y with waitNext := some a }) s) =
      count b 8 (modCtx sub.toNat (fun y => { y with pc := a, waitNext := none })
        (modCtx sub.toNat (fun y => { y with waitNext := some a }) s))) ∧
    (hasProgram x.st = true → x.pfReq = false → ∃ t st, exec (.trap (bare sub)) s = .next (done s t) ∧ (sch sub.toNat t).st = .statusPending ∧
      (sch sub.toNat t).held = x.held ++ [st] ∧ st.cstat = 0x400 ∧ st.pcode = 0x30 ∧ st.aux = c.pc.setWidth 16 ∧
      st.dstatX = (c.pc >>> 16).setWidth 8)

/-- R119 to R121, R131, R132, R135, R137, R341: the stoker's own registers and its instruction cache. Model's choices in
it: log entries 23, 24, 100, 114. -/
def Obligations.StokerRegisters : Prop :=
  ∀ (src : Src) (sub : Sub) (k : StokerNo) (v : Word) (a : BitVec 24) (way : BitVec 2) (o5 : BitVec 5) (s : State),
    up s = true →
    let b := bStk k.toNat
    let line := a.toNat / 64 * 64
    let k' := stkOf sub.toNat
    (∀ ks ws, icFind k.toNat a.toNat s = none → bit (rg b 2 s) way.toNat = false →
      (∃ w0, codeWord k.toNat line s = some w0 ∧
        placeRun (some (fbxOf k.toNat)) none w0 32 s = some ks) → wordsAt ks ws s → (∀ n ∈ ks, isSram n = true) →
      (lineWaits k.toNat line s = [] → needsLine k.toNat line s = none → ∃ u,
        exec (.icacheLineFill k a way false) s = .next (done s u) ∧
        icFind k.toNat a.toNat u = some { base := line, words := ws } ∧
        rgs b 0xE 2 u = (rgs b 0xE 2 s + 1) % 2 ^ 32 ∧ u.mem = s.mem) ∧
      (∀ m, lineWaits k.toNat line s = [m] → ∃ u, exec (.icacheLineFill k a way false) s = .next (done s u) ∧
        icFind k.toNat a.toNat u = some { base := line, words := ws } ∧ (ctx m u).stall = .none ∧ u.mem = s.mem)) ∧
    (∀ m, icFind k.toNat a.toNat s = none → lineWaits k.toNat line s = [] → needsLine k.toNat line s = some m → ∃ u,
      exec (.icacheLineFill k a way false) s = .next (done s u) ∧ (ctx m u).stall = .code line ∧
      ((ctx m u).run = .stalled ∨ (ctx m u).run = .longstall) ∧ rgs b 0xE 2 u = (rgs b 0xE 2 s + 1) % 2 ^ 32 ∧ u.mem = s.mem) ∧
    exec (.icInv src k 1) s = .next (done s (modStk k.toNat (fun x => { x with ic := [] }) s)) ∧
    exec (.codemapWrite src k o5 v) s = .next (done s (modStk k.toNat (fun x => { x with ic := [] })
      (setRg b (0x100 + o5.toNat) (if o5.toNat % 2 = 0 then v else v &&& 0xFC01) (cfgNote src (ra b (0x100 + o5.toNat)) v s)))) ∧
    (∀ ks ws w0, let at_ := fld (rg b 4 s) 7 0 * 65536 + (v &&& 0xFFC0).toNat
      codeWord k.toNat at_ s = some w0 → placeRun (some (fbxOf k.toNat)) none w0 32 s = some ks → wordsAt ks ws s →
      exec (.icPreload src k v) s = .next (done s (modStk k.toNat (fun x => { x with
        ic := mput (icKey (fld (rg b 4 s) 15 14) at_) { base := at_, words := ws } x.ic }) s))) ∧
    (∀ n, mget 0 k' s.presented = n → n ≠ 0 → ∃ u, exec (.evnumRead (.stoker sub) (BitVec.ofNat 9 k')) s = .next (done s u) ∧
      stk k' u = { stk k' s with insvc := (stk k' s).insvc ++ [(n, ctxOf sub.toNat)], claims := (stk k' s).claims ++ [n] } ∧
      mget 0 k' u.presented = 0 ∧ (bit (rg (bStk k') 0x10 s) 0 = false → u.mem = s.mem ∧ u.regs = s.regs)) ∧
    ((stk k' s).insvc.any (fun e => e.1 == v.toNat) = true →
      ∃ u, exec (.evdoneWrite (.stoker sub) (BitVec.ofNat 9 k') v) s = .next (done s u) ∧
      stk k' u = { stk k' s with
        insvc := (stk k' s).insvc.filter (fun e => e.1 != v.toNat), dones := (stk k' s).dones ++ [v.toNat] } ∧
      (bit (rg (bStk k') 0x10 s) 0 = false → u.mem = s.mem ∧ u.regs = s.regs)) ∧
    ((ctx sub.toNat s).run = .inactive ∨ (ctx sub.toNat s).run = .stopped →
      ∀ o : BitVec 7, (o.toNat < 0x1D → exec (.ctxStateWrite src sub o v) s = .next (done s
        (modCtx sub.toNat (fun _ => { ctx sub.toNat s with r := mset 0 o.toNat v (ctx sub.toNat s).r }) s))) ∧
      (o.toNat = 0x1F → exec (.ctxStateWrite src sub o v) s = .next (done s (modCtx sub.toNat (fun _ => { ctx sub.toNat s with
        pc := BitVec.ofNat 24 ((ctx sub.toNat s).pc.toNat / 65536 * 65536 + v.toNat), waitNext := none, got := [] }) s)))) ∧
    (bit (rg (bStk k') (0x301 + 4 * ctxOf sub.toNat) s) 0 = false → specOf sub.toNat s = none →
      (ctx sub.toNat s).stall = .none → ∃ u, exec (.debugStop src sub true) s = .next (done s u) ∧
        ctx sub.toNat u = { ctx sub.toNat s with stopped := true, step1 := false, run := .stopped } ∧ u.mem = s.mem) ∧
    (bit (rg (bStk k') (0x301 + 4 * ctxOf sub.toNat) s) 0 = true → (ctx sub.toNat s).run = .stopped →
      (sch sub.toNat s).phase = .proc → ∃ u, exec (.debugStep src sub true) s = .next (done s u) ∧
        ctx sub.toNat u = { ctx sub.toNat s with stopped := false, step1 := true, run := .ready } ∧ u.mem = s.mem) ∧
    (stkHeld k.toNat s = false → ∃ u, exec (.stkHoldWrite src k 1) s = .next (done s u) ∧ stkHeld k.toNat u = true ∧
      (1, k.toNat) ∈ u.fc.shadows ∧ u.mem = s.mem)

/-- R120, R163: the decoder's fault at the PC is taken, whatever it is; an opcode byte of no opcode is 0x01, a segment
that is not mapped 0x08. R123, R236: transactions that have no answer. Model's choices in it: log entries 18, 19, 20, 102.
-/
def Obligations.StokerFaults : Prop :=
  ∀ (sub : Sub) (a : W32) (n : QueueNo) (s : State),
    let c := ctx sub.toNat s
    let h := hrtOf (stkOf sub.toNat)
    (ready sub s = true →
      (∀ b, codeByte (stkOf sub.toNat) (c.pc.toNat % 2 ^ 24) s = (.inl b, s) → decodeBytes sub [b] = .fault 1 →
        exec (.illegalInstruction sub) s = .next (done s (stokerFault sub.toNat 0x01 0 s))) ∧
      (icFind (stkOf sub.toNat) c.pc.toNat s = none → codeWord (stkOf sub.toNat) c.pc.toNat s = none →
        exec (.illegalInstruction sub) s = .next (done s (stokerFault sub.toNat 0x08 0 s))) ∧
      exec (.busErrorTimeout (.code sub a)) s = .next (done s
        (stokerFault sub.toNat 0x0E (a.toNat / 32 * 32) (busError h a.toNat s)))) ∧
    (up s = true →
      (∀ e l ks, c.stall = .load → (s.loads.find? fun kv => kv.1 == sub.toNat) = some (sub.toNat, e) → e.accs = [(l, ks)] → ∃ v,
        exec (.busErrorTimeout (.load sub)) s = .next (done s (stokerFaultAt sub.toNat 0x0E l e.before.pc.toNat v)) ∧
        (ctx sub.toNat v).r = e.before.r ∧ (ctx sub.toNat v).e = e.before.e ∧ (ctx sub.toNat v).pc = e.before.pc) ∧
      (∀ st rest, c.stall = .none → c.posted = st :: rest → ∃ v,
        exec (.busErrorTimeout (.store sub)) s = .next (done s (storeFailed sub.toNat st (busError h (st.addr.headD 0) v))) ∧
        (toRegs st = false → c.drain = [] → (ctx sub.toNat v).posted = rest ∧
          rgs (bHrt h) 0x814 2 (busError h (st.addr.headD 0) v) = (rgs (bHrt h) 0x814 2 s + 1) % 2 ^ 32 ∧
          ∀ b, b / 2 ∉ st.addr → getByte b v.mem = getByte b s.mem)) ∧
      (∀ f, (sch sub.toNat s).phase = .fetch f → (sch sub.toNat s).pfReq = false → ∃ t st,
        exec (.busErrorTimeout (.ccw sub)) s = .next (done s t) ∧
        (sch sub.toNat t).held = (sch sub.toNat s).held ++ [st] ∧ st.cstat = 0x08 ∧ st.lastCcw = f.addr ∧ t.mem = s.mem) ∧
      ((wq n.toNat s).remote = true → exec (.busErrorTimeout (.wq n)) s = .next (done s
        (modWq n.toNat (fun q => { q with
          remote := false, answer := q.answer.map fun a => { a with aux := 0x20, dstat := a.dstat ||| 0x08 } })
          { s with outst := s.outst.filter fun kv => kv.2 != .wq n.toNat }))) ∧
      ((wq n.toNat s).remote = false → exec (.busErrorTimeout (.wq n)) s = .next (done s (silence (.wq n) s))) ∧
      (∀ p : PortNo, exec (.busErrorTimeout (.port p)) s = .next (done s (silence (.port p) s))))

/-- R88 to R95, R101, R103, R105: the bellows: a CCW joins the lookahead buffer, output data is prefetched, a speculative
entry keeps its checkpoint, a delivered status meets its return, and a horizon drops what is tentative. Model's choices in
it: log entries 27, 28, 29. -/
def Obligations.BellowsCommands : Prop :=
  ∀ (sub : Sub) (s : State), up s = true →
    let n := sub.toNat
    let x := sch n s
    (∀ a ks ws, bit (blwCtl n s) 0 = true → x.look.length < fld (blwCtl n s) 6 4 → lookBase x = true →
      lookNext n s = some (a, false) → ctlOk n a s = true → placesAt sub ((span a 8).map fun i => i % 2 ^ 32) ks s →
      wordsAt ks ws s → wProc ws = false → exec (.lookaheadFetch sub) s = .next (done s
        (modSch n (fun y => { y with look := y.look ++ [{ addr := BitVec.ofNat 32 a, words := ws, entry := none }] }) s))) ∧
    (∀ c e rest ks ws, bit (blwCtl n s) 0 = true → bit (blwCtl n s) 2 = true → x.look = c :: rest → c.entry = some e →
      entDir e = 2 → wFlag c.words 4 = false → wAmode c.words = 0 → wDaddr c.words + 16 ≤ 2 ^ 32 → 32 ≤ wCount c.words →
      placesAt sub (span (wDaddr c.words) 16) ks s → wordsAt ks ws s → ∃ u, exec (.dataPrefetch sub) s = .next (done s u) ∧
        sch n u = { x with prefetch := ks.zip ws, preFor := c.addr } ∧ (∀ m, m ≠ n → sch m u = sch m s) ∧ u.ctx = s.ctx ∧
        u.mem = s.mem ∧ u.regs = s.regs) ∧
    (∀ c rest e, x.phase = .deferred → x.st = .active → x.haltReq = false → x.pathReq = false → x.noSpec = false →
      bit (blwCtl n s) 0 = true → bit (blwCtl n s) 1 = true → (stk (stkOf n) s).spec = none →
      wFlag x.words 0 = true → wFlag x.words 1 = false → stkRuns (stkOf n) s = true → x.look = c :: rest →
      c.entry = some e → specOk n c 0 s = true → wFlag c.words 7 = false → (withX n c s).1 = none →
      (withX n c s).2.free = s.free → (withX n c s).2.due = s.due →
      ∃ u p, exec (.speculativeEntry sub) s = .next (done s u) ∧ (stk (stkOf n) u).spec = some p ∧ p.owner = ctxOf n ∧
        p.x = c ∧ p.ckpt = ctx n s ∧ p.sbuf = [] ∧ (ctx n u).pc = BitVec.ofNat 24 (entPc e) ∧
        getD 0 (ctx n u) = nth c.words 0 ∧ getD 5 (ctx n u) = 0 ∧ sch n u = x ∧ u.mem = s.mem) ∧
    (∀ d pf rest, x.arriving = (d, pf) :: rest →
      (x.phase = .proc → x.delivered = none → exec (.deferredStatusDelivery sub) s = .next (done s
        (modSch n (fun y => { y with delivered := some (d, pf) }) (modSch n (fun y => { y with arriving := rest }) s)))) ∧
      (x.phase = .deferred → specOf n s = none → exec (.deferredStatusDelivery sub) s = .next (done s
        (setStep n (.ret d pf true) (modSch n (fun y => { y with arriving := rest }) s))))) ∧
    (∀ (p : DevPin) (e : FqEntry), (pin p.toNat s).fq = [e] → e.tent = true → e.sub = some n → e.time < 2 ^ 64 →
      (specOf n s).isSome = true → exec (.tentativeHorizon p (BitVec.ofNat 64 e.time)) s = .next (done s
        (squash n (blwCount n 0xA 1 (modSch n (fun y => { y with noSpec := true })
          (modPin p.toNat (fun q => { q with fq := [] }) (reachFine (e.time - 512) s)))))))

/-! ### Draught, lanes, the bulk port -/

/-- R243 to R253: a draught channel: its commands, its descriptor, the reservation of a burst, and a burst into memory
from memory or from a FIFO, which copies its words and changes no other byte. Model's choices in it: log entries 29, 47,
48. -/
def Obligations.DraughtChannels : Prop :=
  ∀ (src : Src) (f : FireboxNo) (n : BitVec 4) (v : Word) (s : State), up s = true → s.safe.on = false →
    drRuns f.toNat s = true →
    let k := chNo f.toNat n.toNat
    let c := chan k s
    (chBusy c = false → c.needDesc = false → exec (.draughtStart src f n) s = .next (done s
      (modChan k (fun x => { x with
        st := .run, bound := none, fifo := none, err := 0, fetching := true, stopReq := false, seg := none, latched := false
        resumed := false, part := x.st == .stopped && x.part }) (chRelease k s)))) ∧
    (chBusy c = true → (chIdle c = true → ∃ u, exec (.draughtStop src f n) s = .next (done s u) ∧
        (chan k u).st = .stopped ∧ (chan k u).bound = none ∧ u.mem = s.mem) ∧
      (chIdle c = false → ∃ u, exec (.draughtStop src f n) s = .next (done s u) ∧ u.mem = s.mem ∧ u.fifos = s.fifos ∧
        chan k u = { c with
          st := .stopping, stopReq := true
          seg := match c.bound with | some sub => some (boundSeg c sub s) | none => c.seg })) ∧
    (c.st = .halted → c.bound = none → 5 ≤ c.err.toNat →
      (c.burst = none → exec (.draughtResume src f n) s = .next (done s (modChan k (fun x => { x with
        st := .run, err := 0, resumed := true, fetching := x.latched, burst := none, got := [] }) s))) ∧
      (∀ b, c.burst = some b → c.latched = false → b.sent = false →
        onFlue f.toNat (readsDeep c) (burstReads c b) s = false →
        ∃ u, exec (.draughtResume src f n) s = .next (done s u) ∧ u.mem = s.mem ∧ u.fifos = s.fifos ∧
          chan k u = { c with
            st := .run, err := 0, resumed := true, fetching := false, burst := some { b with reads := [] }, got := [] })) ∧
    (bit v 15 = true → c.st = .idle →
      let sub := 128 * f.toNat + 16 * fld v 6 4 + fld v 3 0
      let x := sch sub s
      let w := rg (chBlk k) (chOfs k 0xB) s
      ∀ e, x.entry = some e → x.st = .active → entDir e = 1 → bit w 15 = false → 0 < x.curCnt →
        fifoMine f.toNat (FifoId.idx (bindFifo w false)) false s = true →
        ∃ u, exec (.draughtBind src f n v) s = .next (done s u) ∧ (chan k u).st = .run ∧ (chan k u).bound = some sub ∧
          (chan k u).fifo = some (bindFifo w false) ∧ rg (chBlk k) (chOfs k 5) u = wd (x.curCnt + x.more) ∧
          rgs (chBlk k) (chOfs k 6) 2 u = x.curAddr.toNat ∧ u.mem = s.mem) ∧
    (chBusy c = true → c.fetching = true → chDesc k s % 8 = 0 → ∀ m ws,
      drPlace f.toNat false (chDesc k s) s = .mem m → wordsAt (span m 8) ws s →
      (c.part = false → descCheck f.toNat ws s = 0 → ∃ u, exec (.descriptorFetch f ⟨n, 0⟩) s = .next (done s u) ∧
        (chan k u).st = .run ∧ (chan k u).desc = ws ∧ (chan k u).fetching = false ∧ (chan k u).left = descCount ws ∧
        (chan k u).src = (srcSide ws).addr ∧ (chan k u).dst = (dstSide ws).addr ∧
        rg (chBlk k) (chOfs k 5) u = nth ws 6 ∧ u.mem = s.mem) ∧
      (descCheck f.toNat ws s ≠ 0 → ∃ u, exec (.descriptorFetch f ⟨n, 0⟩) s = .next (done s u) ∧
        (chan k u).st = .halted ∧ (chan k u).err = BitVec.ofNat 4 (descCheck f.toNat ws s) ∧ u.mem = s.mem)) ∧
    (∀ m, c.bound = none → drReady k s = some m → engineBusy k s = false → drChoose f.toNat s = some k →
      onFlue f.toNat (readsDeep c) (burstReads c { n := m }) s = false →
      ∃ u, exec (.burstReservation f n) s = .next (done s u) ∧ (chan k u).burst = some { n := m } ∧
        mget 15 f.toNat u.drLast = n.toNat ∧ u.mem = s.mem ∧
        ∀ q, chFifoAny c = some q → (fifo q u).q = (fifo q s).q ∧
          (if fifoInbound q then (fifo q u).rsv else (fifo q u).rsvFree) = m) ∧
    (∀ (m : Nat) (ls : List Nat), let a := srcSide c.desc
      let d := dstSide c.desc
      c.fetching = false → c.st = .run → c.bound = none → c.burst = some { n := m } → 2 * m ≤ c.left → 0 < m → d.kind = 0 →
      (sideAddrs d.mode d.csize c.dst m).map (fun x => drPlace f.toNat d.deep x s) = ls.map Place.mem → ls.Nodup →
      (∀ (ks : List Nat) (ws : List Word), a.kind = 0 →
        (sideAddrs a.mode a.csize c.src m).map (fun x => drPlace f.toNat a.deep x s) = ks.map Place.mem → wordsAt ks ws s →
        ∃ u, exec (.burstComplete f ⟨n, 0⟩) s = .next (done s u) ∧ (∀ p ∈ ls.zip ws, memWord p.1 u = some p.2) ∧
          (∀ b, b / 2 ∉ ls → getByte b u.mem = getByte b s.mem) ∧ rg (chBlk k) (chOfs k 5) u = wd (c.left - 2 * m) ∧
          rgs (chBlk k) 0x10 2 u = (rgs (chBlk k) 0x10 2 s + m) % 2 ^ 32) ∧
      (∀ (q : Nat) (ws : List FWord) (rest : List FWord), sideFifo a.kind a.res false = some q →
        (fifo q s).q = ws ++ rest → ws.length = m → ws.any (fun w => w.eop) = false →
        ∃ u, exec (.burstComplete f ⟨n, 0⟩) s = .next (done s u) ∧ (fifo q u).q = rest ∧
          (∀ p ∈ ls.zip ws, memWord p.1 u = some p.2.w) ∧ (∀ b, b / 2 ∉ ls → getByte b u.mem = getByte b s.mem) ∧
          rg (chBlk k) (chOfs k 5) u = wd (c.left - 2 * m)))

/-- R254 to R265: the commands of the chimney lanes, on lanes that the bulk port does not hold: modes, owners, frames
received and sent with their records, links, negotiation, status posts. Model's choices in it: log entries 49, 50, 71,
109. -/
def Obligations.ChimneyLanes : Prop :=
  ∀ (src : Src) (q : QuadNo) (l : LaneNo) (v : Word) (b : Bool) (x : W64) (sent : BitVec 14) (s : State), up s = true →
    s.safe.on = false → bulkLanes s ≤ l.toNat →
    let n := l.toNat
    let mode := fld (lnReg n 0 s) 15 12
    let q4 := bQd (n / 4)
    (laneRetired n s = false → fld v 15 12 ≠ 1 → fld v 15 12 ≤ 8 → fecOk (fld v 15 12) (fld v 11 10) = true →
      modePll n (fld v 15 12) s = true → (∀ i, i < 4 → (fifo (lnFifo n i) s).rsv = 0) →
      ∃ u, exec (.laneModeWrite src l v) s = .next (done s u) ∧ lnReg n 0 u = v &&& 0xFFF8 ∧
        bit (lnReg n 2 u) 15 = false ∧ (lane n u).post = none ∧ (lane n u).sending = false ∧
        (∀ i, i < 4 → (fifo (lnFifo n i) u).q = []) ∧ u.mem = s.mem) ∧
    ((∀ m, m < 4 → laneMode (4 * q.toNat + m) s < 5) → 1000 ≤ v.toNat → v.toNat ≤ 6250 →
      exec (.qdRateWrite src q v) s = .next (done s (setRg (bQd q.toNat) 1 v (cfgNote src (ra (bQd q.toNat) 1) v s)))) ∧
    (∃ u, exec (.laneOwnerRequest src l v) s = .next (done s u) ∧ (lane n u).ownReq = some (v &&& 0x7F) ∧
      lnOwn n u = lnOwn n s ∧ (lane n u).own = (lane n s).own ∧ u.mem = s.mem) ∧
    (∀ fr : RxFrame, 2 ≤ mode → mode ≤ 6 → bit (lnReg n 2 s) 15 = true → fr.codeErrs = 0 → fr.trunc = false →
      fr.fcsErr = false → 64 ≤ fr.bytes.length → fr.bytes.length ≤ (lnReg n 4 s).toNat → bit (lnReg n 0 s) 5 = false →
      (fr.bytes.length + 1) / 2 ≤ fifoFree (lnFifo n 0) s → 6 ≤ fifoFree (lnFifo n 1) s →
      (fifo (lnFifo n 0) s).dropping = false → (fifo (lnFifo n 1) s).dropping = false →
      ∃ u, exec (.laneFrameReceived l fr) s = .next (done s u) ∧
        (fifo (lnFifo n 0) u).q = (fifo (lnFifo n 0) s).q ++ packFrame true fr.bytes ∧
        ((fifo (lnFifo n 1) u).q.drop (fifo (lnFifo n 1) s).q.length).map (fun w => w.w) =
          [0, wd fr.bytes.length] ++ wordsOf 4 fr.stamp.toNat ∧
        rgs q4 (lnOfs n 0x80) 2 u = (rgs q4 (lnOfs n 0x80) 2 s + 1) % 2 ^ 32 ∧ u.mem = s.mem) ∧
    (txReady n s = true → ∃ u, exec (.laneFrameTransmitStart ⟨l, x⟩) s = .next (done s u) ∧ (lane n u).sending = true ∧ (lane n u).txStamp = x ∧
      (lane n u).txWords ++ (fifo (lnFifo n 2) u).q = (fifo (lnFifo n 2) s).q ∧
      ((lane n u).txWords.dropLast.all fun w => !w.eop) = true ∧ u.mem = s.mem ∧ u.regs = s.regs) ∧
    ((lane n s).sending = true → (lane n s).txWords.any (fun w => w.eop) = true → mode ≠ 8 → bit (lnReg n 0 s) 3 = false →
      ((lane n s).post = none → exec (.laneFrameTransmitEnd l b x) s = .next (done s
        (lnCount n 0x86 (modLane n (fun y => { y with sending := false, txWords := [] }) (reachFine x.toNat s))))) ∧
      (∀ sub, (lane n s).post = some sub → (lane n s).lost = false → (lane n s).ahead = 0 → (lane n s).tgtOver = false →
        ∃ u, exec (.laneFrameTransmitEnd l b x) s = .next (done s u) ∧ (lane n u).post = none ∧
          (sch sub u).arriving = (sch sub s).arriving ++ [((lane n s).postDstat, false)])) ∧
    ((lane n s).sending = true → (lane n s).txWords.any (fun w => w.eop) = true → mode ≠ 8 → bit (lnReg n 0 s) 3 = true →
      (lane n s).post = none → 6 ≤ fifoFree (lnFifo n 3) s → (fifo (lnFifo n 3) s).dropping = false →
      ∃ u, exec (.laneFrameTransmitEnd l b x) s = .next (done s u) ∧ (lane n u).sending = false ∧
        ((fifo (lnFifo n 3) u).q.drop (fifo (lnFifo n 3) s).q.length).map (fun w => w.w) =
          [0, wd (txBytes n (lane n s).txWords s)] ++ wordsOf 4 (lane n s).txStamp.toNat ∧ u.mem = s.mem) ∧
    ((lane n s).sending = true → (lane n s).txWords.any (fun w => w.eop) = false → (fifo (lnFifo n 2) s).q = [] → mode ≠ 8 →
      ∃ u, exec (.laneFrameTransmitEnd l true x) s = .next (done s u) ∧ (lane n u).sending = false ∧ (lane n u).discard = true ∧
        rgs q4 (lnOfs n 0x88) 2 u = (rgs q4 (lnOfs n 0x88) 2 s + 1) % 2 ^ 32 ∧ u.mem = s.mem) ∧
    (2 ≤ mode → bit (lnReg n 2 s) 15 = true → ∃ u, exec (.laneLinkChange l ⟨false, sent⟩) s = .next (done s u) ∧
      bit (lnReg n 2 u) 15 = false ∧ (lane n u).post = none ∧ (lane n u).sending = false ∧ u.mem = s.mem) ∧
    (2 ≤ mode → bit (lnReg n 2 s) 15 = false → exec (.laneLinkChange l ⟨true, sent⟩) s = .next (done s
      (raise q4 (4 * (n % 4) + 1) (wd n) (laneEdge n 4 (setLnBit n 2 15 true s))))) ∧
    (2 ≤ mode → ∀ (res : BitVec 3) (fec : BitVec 2), anMay n res.toNat fec.toNat s = true →
      exec (.laneAnComplete l res fec) s = .next (done s
      (laneEdge n 5 (setLn n 2 (setFld (setFld (setBit (lnReg n 2 s) 14 true) 12 10 res.toNat) 9 8 fec.toNat) s)))) ∧
    (∀ sub : Sub, (lane n s).own = some (BitVec.ofNat 6 (subFbx sub.toNat)) → (lane n s).post = none →
      ∃ u, exec (.laneStatusArm (.stoker sub) l v) s = .next (done s u) ∧ (lane n u).post = some sub.toNat ∧
        (lane n u).postDstat = v.setWidth 8 ∧ u.fifos = s.fifos ∧ u.regs = s.regs ∧ u.mem = s.mem) ∧
    exec (.quadPllLock q b) s = .next (done s (setRgBit (bQd q.toNat) 0 (if b then 14 else 15) true s)) ∧
    (2 ≤ mode → exec (.laneLockChange l b) s = .next (done s (setLnBit n 2 13 b s)))

/-- R266 to R270, R328: the bulk port's commands: link changes, retraining, function reset and configuration, requests it
refuses, and reads and writes of GDDR6 through BAR4. Model's choices in it: log entries 64, 65, 101, 102, 107, 108. -/
def Obligations.BulkPort : Prop :=
  ∀ (src : Src) (w g : BitVec 2) (fl : CfgField) (ofs : W32) (v : Word) (s : State), up s = true →
    let cpl (st : Nat) (ws : List Word) : State := { s with bulk := { s.bulk with cpl := s.bulk.cpl ++ [(st, ws)] } }
    (s.bulk.on = true → s.bulk.linkUp = false → w.toNat ≤ s.bulk.width.toNat → g.toNat ≤ s.bulk.gen.toNat →
      exec (.bulkLinkUp w g) s = .next (done s
        (setRgBit 0xB 0 14 false { s with bulk := { s.bulk with linkUp := true, nwidth := w, ngen := g } }))) ∧
    (s.bulk.linkUp = true →
      (s.bulk.jobs = [] → exec .bulkLinkDown s = .next (done s (raise 0xB 0 0 (count 0xB 0x14 { s with bulk := { s.bulk with
        linkUp := false, nwidth := 0, ngen := 0, cpl := [] } })))) ∧
      ((∀ j ∈ s.bulk.jobs, j.wr = false) → ∃ u, exec .bulkLinkDown s = .next (done s u) ∧ u.bulk.linkUp = false ∧
        u.bulk.cpl = [] ∧ u.bulk.jobs = [] ∧ rgs 0xB 0x14 2 u = (rgs 0xB 0x14 2 s + 1) % 2 ^ 32 ∧ u.mem = s.mem) ∧
      exec .pcieUnsupportedRequest s = .next (done s (cpl 1 [])) ∧
      exec (.pcieConfigRequest false fl v) s = .next (done s (cpl 0 (cfgField fl s))) ∧
      (∃ u, exec (.pcieConfigRequest true fl v) s = .next (done s u) ∧ u.bulk.cpl = s.bulk.cpl ++ [(0, [])] ∧
        u.bulk.bme = (if fl = .command then bit v 2 else s.bulk.bme) ∧
        u.bulk.d3 = (if fl = .powerState ∧ fld v 1 0 = 0 then false else s.bulk.d3 || (fl == .powerState && fld v 1 0 == 3)) ∧
        u.bulk.fnMask = (if fl = .msixControl then bit v 14 else s.bulk.fnMask) ∧
        u.bulk.msixEn = (if fl = .msixControl then bit v 15 else s.bulk.msixEn) ∧
        (u.bulk.d3 = true ∨ u.bulk.bme = false ∨ u.bulk.fnMask = true ∨ u.bulk.msixEn = false →
          u.bulk.msix = s.bulk.msix) ∧ u.mem = s.mem) ∧
      (booted s = true → gdReady s = true → s.mute.contains (.host true) = false → s.bulk.jobs = [] → ofs.toNat % 2 = 0 →
        ofs.toNat + 2 ≤ 2 ^ 32 → let k := 0x80000000 + ofs.toNat / 2
        (∀ x, place none none k s = .mem k → memWord k s = some x → mget 0 k s.marks = 0 →
          exec (.pcieReadRequest 2 ofs 1) s = .next (done s (cpl 0 [x]))) ∧
        (place none none k s = .mem k → exec (.pcieWriteRequest 2 ofs [(v, 3)]) s = .next (done s (memStore [(k, v)] s))) ∧
        (place none none k s = .unmapped → ∃ u, exec (.pcieReadRequest 2 ofs 1) s = .next (done s u) ∧
          u.bulk.cpl = s.bulk.cpl ++ [(1, [])] ∧ bit (rg 0xB 1 u) 6 = true ∧
          rgs 0xB 0x10 2 u = (rgs 0xB 0x10 2 s + 1) % 2 ^ 32 ∧ u.mem = s.mem))) ∧
    (bit v 14 = true → s.bulk.jobs = [] → ∃ u, exec (.bulkRetrain src v) s = .next (done s u) ∧
      rg 0xB 0 u = (if bit v 15 then v &&& 0xFC00 else v &&& 0xBC00) ∧ u.bulk.linkUp = false ∧ u.bulk.on = bit v 15 ∧
      u.bulk.width.toNat = fld v 13 12 ∧ u.bulk.gen.toNat = fld v 11 10 ∧ u.mem = s.mem) ∧
    (∃ u, exec (.functionLevelReset) s = .next (done s u) ∧
      u.bulk = { s.bulk with d3 := false, bme := false, fnMask := false, msixEn := false } ∧
      u.mem = s.mem ∧ (∀ a, ¬ (ra 0xB 0x1000 ≤ a ∧ a < ra 0xB 0x1405) → reg a u = reg a s) ∧
      ∀ a, ra 0xB 0x1000 ≤ a ∧ a < ra 0xB 0x1208 → reg a u = regReset a)

/-! ### The flue -/

/-- R272, R273, R275 to R278, R280, R286 to R290: the commands of the flue ports that carry no packet for this device.
Model's choices in it: log entries 56, 58, 71, 110. -/
def Obligations.FluePorts : Prop :=
  ∀ (src : Src) (p : PortNo) (nbr : DevNo) (far : BitVec 4) (sq : BitVec 12) (b : Bool) (v : Word) (s : State), up s = true →
    let n := p.toNat
    let st := rg (bFl n) 1 s
    let f := flue n s
    (bit v 15 = false → fld v 3 0 ≠ 0 → ∃ u, exec (.fluePortEnable src p v) s = .next (done s u) ∧ flUp n u = false ∧
      (flue n u).bringup = false ∧ rg (bFl n) 0 u = v &&& 0x800F ∧ u.mem = s.mem) ∧
    (bit v 15 = true → bit v 14 = false → bit v 13 = false → fld v 3 0 ≠ 0 → booted s = true → bit st 12 = false →
      bit st 15 = false → isolated s = false → f.bringup = false → ∃ u, exec (.fluePortEnable src p v) s = .next (done s u) ∧
      (flue n u).bringup = true ∧ (flue n u).tries = 0 ∧ rg (bFl n) 0 u = v &&& 0x800F ∧ u.mem = s.mem) ∧
    (bit (rg (bFl n) 0 s) 15 = true → fld (rg (bFl n) 0 s) 3 0 ≠ 0 →
      (bit st 12 = false → bit (rg (bFl n) 0 s) 13 = false → ∃ u, exec (.flueRetrain src p) s = .next (done s u) ∧
        flUp n u = false ∧ (flue n u).replay = f.replay ∧ rgs (bFl n) 0x18 2 u = (rgs (bFl n) 0x18 2 s + 1) % 2 ^ 32) ∧
      (∃ u, exec (.flueRestore src p) s = .next (done s u) ∧ fld (rg (bFl n) 1 u) 11 8 = 0xF ∧ bit (rg (bFl n) 1 u) 12 = false)) ∧
    (f.bringup = true → f.waiting = [] → fld st 11 8 = 0xF → nbr.toNat ≠ devNum s → laneCount far.toNat = 4 →
      ∃ u, exec (.flueBringupComplete p nbr 0xF far) s = .next (done s u) ∧ flUp n u = true ∧ fld (rg (bFl n) 1 u) 14 13 = 2 ∧
        rg (bFl n) 2 u = wd (0x8000 + nbr.toNat) ∧ (flue n u).bringup = false ∧ u.mem = s.mem) ∧
    (f.bringup = true → (f.tries < 3 → exec (.flueBringupTimeout p) s = .next (done s
        (modFlue n (fun y => { y with tries := y.tries + 1 }) s))) ∧
      (3 ≤ f.tries → ∃ u, exec (.flueBringupTimeout p) s = .next (done s u) ∧ bit (rg (bFl n) 1 u) 12 = true ∧
        bit (rg (bFl n) 1 u) 4 = true ∧ (flue n u).replay = [])) ∧
    ((∀ i, i < 4 → bit (rg (bFl i) 0 s) 15 = false) → exec (.devnumWrite src v) s = .next (done s
      (setRg 0xC 3 (wd (fld v 11 0)) (cfgNote src (ra 0xC 3) v s)))) ∧
    (flUp n s = true →
      (∀ pre t rest (c1 c2 : BitVec 6), f.replay = pre ++ t :: rest → t.p.seq = sq → (∀ y ∈ pre, y.p.seq ≠ sq) → f.waiting = [] →
        ∃ u, exec (.flueAck p sq c1 c2) s = .next (done s u) ∧ (flue n u).replay = rest ∧
          (flue n u).reqCr = min 32 (f.reqCr + c1.toNat) ∧ (flue n u).cplCr = min 32 (f.cplCr + c2.toNat) ∧
          (flue n u).replays = 0) ∧
      (∀ t rest, f.replay = t :: rest → f.replays = 0 → 1 < fld (rg (bFl n) 0 s) 3 0 →
        (∃ u, exec (.flueNak p t.p.seq) s = .next (done s u) ∧ (flue n u).replay = f.replay ∧ (flue n u).replays = 1 ∧
          rgs (bFl n) 0x16 2 u = (rgs (bFl n) 0x16 2 s + 1) % 2 ^ 32) ∧
        (∃ u, exec (.flueReplayTimeout p) s = .next (done s u) ∧ (flue n u).replay = f.replay ∧ (flue n u).replays = 1)) ∧
      (f.unacked ≠ 0 → exec (.flueAckTimer p) s = .next (done s
        (modFlue n (fun y => { y with
          ackSent := some (y.rxSeq - 1, y.freeReq, y.freeCpl), unacked := 0, freeReq := 0, freeCpl := 0 }) s))) ∧
      (bit st 12 = false → bit (rg (bFl n) 0 s) 15 = true →
        (∃ u, exec (.flueLinkDown p) s = .next (done s u) ∧ flUp n u = false ∧ (flue n u).replay = f.replay) ∧
        (f.replay ≠ [] → ∃ u, exec (.flueNeighbourHung p) s = .next (done s u) ∧ flUp n u = false ∧
          bit (rg (bFl n) 1 u) 5 = true)) ∧
      exec (.fluePacketRejected p ⟨.crc, b⟩) s = .next (done s
        (modFlue n (fun y => { y with nakSent := some y.rxSeq }) (count (bFl n) 0x14 s))) ∧
      exec (.fluePacketRejected p ⟨.order, b⟩) s = .next (done s (modFlue n (fun y => { y with nakSent := some y.rxSeq }) s)) ∧
      exec (.fluePacketRejected p ⟨.malformed, b⟩) s = .next (done s (count (bFl n) 0x1C (flAccept n b s)))) ∧
    (∀ t1 : W64, isUpport n s = true → f.lostRun ≠ 7 → exec (.flueTimeExchange p ⟨true, t1⟩) s = .next (done s
      (modFlue n (fun y => { y with lostRun := y.lostRun + 1 }) s))) ∧
    (∀ t1 t2 t3 t4 : W64, timeServes n s = true →
      exec (.flueTimeExchange p ⟨b, t1⟩) s = .next (done s
        (modFlue n (fun y => { y with timeT1 := some t1 }) (reachFine t1.toNat s))) ∧
      (f.timeT1 = some t1 → exec (.flueTimeBlock p t1 t2 t3 t4) s = .next (done s
        (modFlue n (fun y => { y with timeT1 := none, timeBack := some (t1, t4) }) (reachFine t4.toNat s))))) ∧
    (∀ t1 : W64, isUpport n s = true → rg (bFl n) 4 s = 0 → f.fr = 0 → s.ft.running = true → t1.toNat + 40 < 2 ^ 64 →
      ∃ u, exec (.flueTimeBlock p t1 (t1 + 20) (t1 + 20) (t1 + 40)) s = .next (done s u) ∧
        rgs (bFl n) 0x40 2 u = 0 ∧ rgs (bFl n) 0x42 2 u = 20 ∧ (flue n u).lockRun = f.lockRun + 1 ∧ u.ft.slew = 0 ∧
        u.ft.dtb = s.ft.dtb) ∧
    (bit v 15 = true → ∃ u, exec (.flueIsolate src v) s = .next (done s u) ∧ isolated u = true ∧ flUp n u = false ∧
      (flue n u).bringup = false ∧ u.mem = s.mem)

/-- R274, R279, R282 to R285: packets for this device that arrive in order: a read, a write, an atomic access and an
operation are carried out and answered; completions reach their requesters; and the remote operation port. Model's choices
in it: log entries 57, 58, 102. -/
def Obligations.FluePackets : Prop :=
  ∀ (p : PortNo) (k : Packet) (ks : List Nat) (ws : List Word) (s : State), up s = true → booted s = true →
    flUp p.toNat s = true → isolated s = false → k.seq = (flue p.toNat s).rxSeq → k.dest.toNat = devNum s →
    bit (routeW k.src.toNat s) 14 = false → s.mute.contains (.port p) = false →
    let a := pktAddr k
    let n := k.cnt.toNat + 1
    let s1 : State := { flAccept p.toNat false s with flueSrc := k.src }
    let answer (typ stat cnt : Nat) (pay : List Word) (t : State) : Host.Outcome State Fault Refusal :=
      .next (done s (flReply typ k stat cnt pay t))
    (pktOk 1 k = true → (span a n).map (fun x => extPlace (.flue p) x s) = ks.map Place.mem → a + n ≤ 2 ^ 32 → wordsAt ks ws s →
      exec (.rdreq p k) s = answer 8 0 k.cnt.toNat (padBlocks ws) s1) ∧
    (pktOk 2 k = true → (span a n).map (fun x => extPlace (.flue p) x s) = ks.map Place.mem → a + n ≤ 2 ^ 32 → ks.Nodup →
      ∃ t, exec (.wrreq p k) s = answer 9 0 k.cnt.toNat [] t ∧
        (∀ y ∈ ks.zip ((k.payload.drop 4).take n), memWord y.1 t = some y.2) ∧
        (∀ b, b / 2 ∉ ks → getByte b t.mem = getByte b s.mem)) ∧
    (∀ key w, pktOk 3 k = true → bit (nth k.payload 2) 15 = false → extPlace (.flue p) a s = .mem key → a < 2 ^ 32 →
      wordsAt [key] [w] s →
      let new := atomNew (fld (nth k.payload 2) 2 0) 16 w.toNat (nth k.payload 5).toNat (nth k.payload 7).toNat
      (∀ x, new = some x → exec (.atreq p k) s = answer 10 0 0 [0, w, 0, 0] (memStore [(key, wd x)] s1)) ∧
      (new = none → exec (.atreq p k) s = answer 10 0 0 [0, w, 0, 0] s1)) ∧
    (pktOk 4 k = true → nth k.payload 1 = 0x6000 → exec (.opreq p k) s = answer 11 0 0 [] s1) ∧
    (∀ who, (s.outst.find? fun kv => kv.1 == k.tag.toNat) = some (k.tag.toNat, .op who) → s.i3c.exec = none → s.bulk.jobs = [] →
      k.stat = 0 →
      (pktOk 11 k = true → ∃ u, exec (.opcpl p k) s = .next (done s u) ∧ (mget {} who u.rops).pend = false ∧
        (mget {} who u.rops).res = k.cnt ∧ (mget {} who u.rops).flerr = 0 ∧ u.mem = s.mem)) ∧
    (∀ sub st, (s.outst.find? fun kv => kv.1 == k.tag.toNat) = some (k.tag.toNat, .store sub) → k.stat = 0 →
      s.i3c.exec = none → s.bulk.jobs = [] → (ctx sub s).posted = [st] → (ctx sub s).drain = [] → st.tags = [k.tag] → pktOk 9 k = true →
      ∃ u, exec (.wrcpl p k) s = .next (done s u) ∧ (ctx sub u).posted = [] ∧ u.mem = s.mem) ∧
    (∀ sub addr m, k.stat = 0 → s.i3c.exec = none → s.bulk.jobs = [] → (ctx sub s).run = .stalled →
      (ctx sub s).stopped = false → (ctx sub s).got = [] →
      ((s.outst.find? fun kv => kv.1 == k.tag.toNat) = some (k.tag.toNat, .load sub addr m) → pktOk 8 k = true →
        ∃ u, exec (.rdcpl p k) s = .next (done s u) ∧ (ctx sub u).got = (span addr m).zip k.payload ∧
          (ctx sub u).run = .running ∧ (ctx sub u).stall = .none ∧ u.mem = s.mem) ∧
      ((s.outst.find? fun kv => kv.1 == k.tag.toNat) = some (k.tag.toNat, .atom sub addr 1) → pktOk 10 k = true →
        ∃ u, exec (.atcpl p k) s = .next (done s u) ∧ (ctx sub u).got = [(addr, nth k.payload 1)] ∧
          (ctx sub u).run = .running ∧ u.mem = s.mem)) ∧
    (∀ (src : Src) (op : BitVec 4) (dev : DevNo) (addr : W32) (parm : Word), (rop src s).pend = false →
      (exec (.remoteOperationIssue src op dev addr parm true) s = .next (done s (modRop src (fun r => { r with
        pend := false, none := false, flerr := 0, op := 0, res := 8 }) (ropForget src s)))) ∧
      (dev.toNat = devNum s → op = 6 → exec (.remoteOperationIssue src op dev addr parm false) s = .next (done s
        (modRop src (fun r => { r with none := false, flerr := 0, op := 6, res := 0 }) s)))) ∧
    (∀ src : Src, (rop src s).pend = true → exec (.remoteOperationTimeout src) s = .next (done s
      (modRop src (fun r => { r with pend := false, flerr := 2 }) (ropForget src s))))

/-! ### Events, the host interface, rings -/

/-- R292 to R299: the commands of a hearth's event controller, for sources of its own units (below 0x100). Model's choices
in it: log entries 59, 60, 111. -/
def Obligations.EventControllers : Prop :=
  ∀ (src : Src) (h : HearthNo) (n : EvNo) (k : StokerNo) (w : BitVec 6) (j : BitVec 5) (v : Word) (b : Bool) (s : State),
    up s = true →
    let bh := bHrt h.toNat
    let bk := bHrt (hrtOf k.toNat)
    (0 < n.toNat → n.toNat < 0x100 → evTarget h.toNat n.toNat s ≠ 64 →
      (evGet bh 0x140 n.toNat s = false → exec (.eventSourceEdge h n) s = .next (done s (evPut bh 0x140 n.toNat true s))) ∧
      (evGet bh 0x140 n.toNat s = true → exec (.eventSourceEdge h n) s = .next (done s (count bh 0x402 s)))) ∧
    (evIsLevel n.toNat = true → exec (.eventSourceLevelChange h n b) s = .next (done s
      { s with evLevel := mset false (h.toNat * 1024 + n.toNat) b s.evLevel })) ∧
    (∀ t : BitVec 6, 0 < n.toNat → n.toNat < 0x100 → evTarget h.toNat n.toNat s = t.toNat →
      (∀ m, m < 1024 → (evGet bh 0x140 m s = true ↔ m = n.toNat)) → levelSources s h.toNat = [] → evEn h.toNat n.toNat s = true →
      evInSvc h.toNat n.toNat s = false → tgtGone (64 * h.toNat + t.toNat) s = false →
      (stk (64 * h.toNat + t.toNat) s).insvc = [] → ∃ u, exec (.eventEvaluation h) s = .next (done s u) ∧
        mget 0 (64 * h.toNat + t.toNat) u.presented = n.toNat ∧ u.mem = s.mem) ∧
    (∀ m rest, (stk k.toNat s).claims = m :: rest → m < 1024 →
      ∃ u, exec (.eventClaimArrival k) s = .next (done s u) ∧ (stk k.toNat u).claims = rest ∧ evGet bk 0x180 m u = true ∧
        evGet bk 0x140 m u = false ∧ rgs bk 0x400 2 u = (rgs bk 0x400 2 s + 1) % 2 ^ 32 ∧ u.mem = s.mem) ∧
    (∀ m rest, (stk k.toNat s).dones = m :: rest → m < 1024 → (stk k.toNat s).claims.contains m = false →
      rest.contains m = false → ((stk k.toNat s).insvc.any fun e => e.1 == m) = false →
      (∀ ks ∈ s.stk, ks.1 ≠ k.toNat → hrtOf ks.1 = hrtOf k.toNat → stkHolds ks.1 m s = false) →
      ∃ u, exec (.eventDoneArrival k) s = .next (done s u) ∧ (stk k.toNat u).dones = rest ∧ evGet bk 0x180 m u = false ∧
        u.mem = s.mem) ∧
    (∃ u, exec (.evcPendClear src h w v) s = .next (done s u) ∧ u.mem = s.mem ∧ ∀ i, i < 16 →
      evIsLevel (16 * w.toNat + i) = false →
      evGet bh 0x140 (16 * w.toNat + i) u = (evGet bh 0x140 (16 * w.toNat + i) s && !bit v (15 - i))) ∧
    (fld v 6 0 ≠ 0 → evTarget h.toNat (fld v 6 0) s ≠ 64 → evGet bh 0x140 (fld v 6 0) s = false →
      exec (.evcSwset src h v) s = .next (done s (evPut bh 0x140 (fld v 6 0) true s))) ∧
    exec (.evcSwset src h 0) s = .next (done s (setRgBit bh 0 7 true s)) ∧
    (bit v 15 = false → exec (.evcSlotWrite src h false j v) s = .next (done s
      (setRg bh (0x20 + j.toNat) (v &&& 0x803F) (cfgNote src (ra bh (0x20 + j.toNat)) v s)))) ∧
    (evPending h.toNat n.toNat s = true → isOrphan h.toNat n.toNat s = false → evTarget h.toNat n.toNat s < 64 →
      tgtGone (64 * h.toNat + evTarget h.toNat n.toNat s) s = true → fallback h.toNat s = none →
      ∃ u, exec (.orphanTimeout h n) s = .next (done s u) ∧ isOrphan h.toNat n.toNat u = true ∧
        evGet 2 0x20 0xFE u = true ∧ rgs bh 0x406 2 u = (rgs bh 0x406 2 s + 1) % 2 ^ 32 ∧ u.mem = s.mem)

/-- R300 to R304: the commands of the host event controller: signals, claims, dones, software events, in-band interrupts.
Model's choices in it: log entry 59. -/
def Obligations.HostEvents : Prop :=
  ∀ (src : Src) (w : BitVec 4) (v : Word) (s : State), up s = true →
    let n := hevNext s
    let m := hevTake s
    (s.hev.lastSig < n → s.hev.wake = false → bit (rg 2 0 s) 0 = true → s.i3c.da.isSome = true → s.i3c.tint = true →
      bit (rg 2 0 s) 1 = false → exec .hostEventEvaluation s = .next (done s
        { s with hev := { s.hev with latch := BitVec.ofNat 8 n, lastSig := n, ibi := true } })) ∧
    (hevCount s < 16 → s.hev.latch.toNat ≤ n → m = n) ∧ (16 ≤ hevCount s → m = 0) ∧
    ((∀ sub, src ≠ .stoker sub) → m ≠ 0 → ∃ u, exec (.hevClaimRead src) s = .next (done s u) ∧ hevInSvc m u = true ∧
      evGet 2 0x20 m u = false ∧ u.hev.wake = false ∧ u.hev.latch = 0 ∧ (hevClaimRead src s).1 = wd m ∧ u.mem = s.mem) ∧
    (∀ sub, exec (.hevClaimRead (.stoker sub)) s = .next (done s s) ∧ (hevClaimRead (.stoker sub) s).1 = 0) ∧
    (0 < fld v 7 0 → hevInSvc (fld v 7 0) s = true → ∃ u, exec (.hevDoneWrite src v) s = .next (done s u) ∧
      hevInSvc (fld v 7 0) u = false ∧ u.mem = s.mem) ∧
    (hevInSvc (fld v 7 0) s = false → exec (.hevDoneWrite src v) s = .next (done s (setRgBit 2 1 6 true s))) ∧
    (0xF0 ≤ fld v 7 0 → fld v 7 0 ≤ 0xFD → exec (.hevSwset src v) s = .next (done s (evPut 2 0x20 (fld v 7 0) true s))) ∧
    ((fld v 7 0 < 0xF0 ∨ 0xFD < fld v 7 0) → exec (.hevSwset src v) s = .next (done s (setRgBit 2 1 7 true s))) ∧
    (¬ (s.hev.latch.toNat / 16 = w.toNat ∧ bit v (evBit s.hev.latch.toNat) = true) → exec (.hevPendClear src w v) s =
      .next (done s (setRg 2 (0x20 + w.toNat) (rg 2 (0x20 + w.toNat) s &&& ~~~v) s))) ∧
    (∃ u, exec (.hevPendClear src w v) s = .next (done s u) ∧
      rg 2 (0x20 + w.toNat) u = rg 2 (0x20 + w.toNat) s &&& ~~~v ∧ u.mem = s.mem) ∧
    (s.hev.ibi = true → s.hev.backoff = false →
      exec .ibiAck s = .next (done s (count 2 0x40 { s with hev := { s.hev with
        ibi := false, retry := 0, lastByte := some (BitVec.ofNat 8 n) } })) ∧
      (s.hev.retry < 8 → exec .ibiNack s = .next (done s
        (let t := count 2 0x42 s; { t with hev := { t.hev with backoff := true } }))) ∧
      (8 ≤ s.hev.retry → ∃ u, exec .ibiNack s = .next (done s u) ∧ u.hev.wake = true ∧ u.hev.ibi = false ∧ u.hev.retry = 0 ∧
        rgs 2 0x44 2 u = (rgs 2 0x44 2 s + 1) % 2 ^ 32 ∧ .fault 2 0 true false 0 false ∈ u.due)) ∧
    (s.hev.backoff = true → n ≠ 0 → exec .ibiRetryExpiry s = .next (done s
      { s with hev := { s.hev with backoff := false, retry := s.hev.retry + 1 } })) ∧
    (s.hev.backoff = true → n = 0 → exec .ibiRetryExpiry s = .next (done s
      { s with hev := { s.hev with backoff := false, ibi := false, retry := 0 } }))

/-- R306 to R309: the common command codes and the Hot-Join request: the address, the enables, what each read answers;
after an HDR mode it does not know the target ignores the bus until the HDR Exit Pattern, and a code it does not support
is NACKed or ignored. Model's choices in it: log entries 61, 62, 112. -/
def Obligations.CommonCommandCodes : Prop :=
  ∀ (a sa : BitVec 7) (x y : Bool) (v : Word) (db : Byte) (s : State), up s = true → s.i3c.deaf = false →
    let c := s.i3c
    let gives (c' : I3c) : Host.Outcome State Fault Refusal := .next (done s { s with i3c := c' })
    let reads (bs : List Byte) : I3c := { c with reply := if c.da.isSome then some bs else none }
    exec (.enec x y) s = gives { c with tint := c.tint || x, hj := c.hj || y } ∧
    exec (.disec x y) s = gives { c with tint := c.tint && !x, hj := c.hj && !y } ∧
    exec .rstdaa s = gives { c with da := none } ∧
    exec (.entdaa a) s = gives (if c.da.isSome then c else { c with da := some a, hotJoin := false }) ∧
    exec (.setdasa sa a) s = gives
      (if c.da.isSome || fld (rg 1 2 s) 6 0 ≠ sa.toNat then c else { c with da := some a, hotJoin := false }) ∧
    exec (.setnewda a) s = gives (if c.da.isSome then { c with da := some a, hotJoin := false } else c) ∧
    exec (.setmwl v) s = gives c ∧ exec (.setmrl v) s = gives c ∧
    exec .getmwl s = gives (reads [0x01, 0x0A]) ∧ exec .getmrl s = gives (reads [0x01, 0x0A, 0x01]) ∧
    exec .getbcr s = gives (reads [0x26]) ∧ exec .getdcr s = gives (reads [0x00]) ∧
    exec .getcaps s = gives (reads [if bit (rg 1 0 s) 0 then 0x01 else 0x00]) ∧
    exec .getpid s = gives (reads (bytesOf (wordsOf 3 (i3cPid s)))) ∧
    exec .getstatus s = gives { reads (bytesOf [i3cStatus s]) with crcFlag := c.crcFlag && c.da.isNone } ∧
    exec .enthdr0 s = gives { c with hdr := c.hdr || bit (rg 1 0 s) 0 } ∧
    exec (.rstact .enterHdr db) s = gives { c with deaf := true } ∧
    exec .hdrExit { s with i3c := { c with deaf := true } } = gives { c with hdr := false } ∧
    exec .hdrExit s = gives { c with hdr := false } ∧
    (∀ f, f = .broadcast ∨ f = .direct → exec (.rstact f 0) s = gives c ∧
      ∃ u, exec (.rstact f 1) s = .next (done s u) ∧ u.i3c = { da := c.da, hotJoin := c.hotJoin } ∧
        (u.winGot.find? fun g => g.1 == 0) = none ∧ u.mem = s.mem ∧ u.regs = s.regs) ∧
    (2 ≤ db.toNat → exec (.rstact .direct db) s = gives { c with reply := none } ∧ exec (.rstact .broadcast db) s = gives c) ∧
    exec (.rstact .unknownDirect db) s = gives { c with reply := none } ∧ exec (.rstact .unknownBroadcast db) s = gives c ∧
    exec .hotJoinRequest s = gives { c with hotJoin := c.hotJoin || (c.da.isNone && c.hj && bit (rg 1 0 s) 1) }

/-- R311 to R315, R368: requests of the window: each is counted, runs, and leaves its response: the opcode with bit 7 set,
LEN, RESULT, TOP, DONE, the tag and the data under a CRC. In HDR-DDR a frame under another command code is not
acknowledged. Model's choices in it: log entries 61, 64, 102, 112. -/
def Obligations.WindowRequests : Prop :=
  ∀ (code count dlen : Byte) (a : W32) (op : Byte) (tag w : Word) (s : State), up s = true → booted s = true →
    s.i3c.da.isSome = true → s.i3c.deaf = false → s.i3c.exec = none → s.mute.contains (.host false) = false →
    let body (o code : Nat) (ds : List Word) (fin : Nat) (t : State) : List Byte :=
      [BitVec.ofNat 8 (o + 128), BitVec.ofNat 8 ds.length, BitVec.ofNat 8 code, BitVec.ofNat 8 (hevTop t)] ++
        bytesOf ([wd fin, tag] ++ ds)
    let answers (c : Instr) (o code : Nat) (ds : List Word) (fin : Nat) : Prop :=
      ∃ u, exec c s = .next (done s u) ∧ (∃ t, u.i3c.resp =
        some (body o code ds fin t ++ bytesOf [crc16 (body o code ds fin t)])) ∧ u.i3c.exec = none ∧
        rgs 1 0x10 2 u = (rgs 1 0x10 2 s + 1) % 2 ^ 32
    (∀ k, 0x80000000 ≤ a.toNat → gdReady s = true → place none none a.toNat s = .mem k → mget 0 k s.marks = 0 →
      (memWord k s = some w → answers (.winRead 1 a tag) 1 0 [w] 1) ∧
      (∃ u, exec (.winWrite 1 a tag [w]) s = .next (done s u) ∧ memWord k u = some w ∧
        (∀ b, b / 2 ≠ k → getByte b u.mem = getByte b s.mem) ∧ u.i3c.resp.isSome = true)) ∧
    (place none none a.toNat s = .unmapped → answers (.winRead 1 a tag) 1 4 [] 0) ∧
    answers (.winRead 0 a tag) 1 3 [] 0 ∧
    answers (.winPing 0 0 tag) 7 0 [] 0x2416 ∧
    (∃ ds, ds.length = 8 ∧ nth ds 1 = wd (hevCur s * 256 + hevTop s) ∧ (ds.drop 2).take 4 = wordsOf 4 s.ft.dtb ∧
      nth ds 7 = wd (devNum s) ∧ answers (.winStatus 0 0 tag) 3 0 ds 0) ∧
    answers (.winEventClaim 0 0 tag) 4 0 [] (hevTake s) ∧
    (∀ n : Byte, n ≠ 0 → answers (.winEventDone 0 (n.setWidth 32) tag) 5 (if hevInSvc n.toNat s then 0 else 7) [] 0) ∧
    (quoteRuns s = false → ∃ u, exec (.winQuote 1 0 tag [w]) s = .next (done s u) ∧ u.sec.nonce = [w] ∧
      (∃ t, u.i3c.resp = some (body 6 0 [] (rg 4 4 s + 1).toNat t ++ bytesOf [crc16 (body 6 0 [] (rg 4 4 s + 1).toNat t)]))) ∧
    (∀ crc len c, winFails op.toNat count.toNat a.toNat dlen.toNat crc len = c → c ≠ 0 →
      (s.i3c.hdr = false ∨ code = 0x20 → answers (.windowRequestRejected code op count a tag dlen ⟨crc, len⟩) (op.toNat % 128) c [] 0) ∧
      (crc = false → c = 1)) ∧
    exec .responseRead s = .next (done s { s with i3c := { s.i3c with
      reply := s.i3c.resp, respRead := s.i3c.respRead || s.i3c.resp.isSome } }) ∧
    (s.i3c.hdr = true → code ≠ 0x20 → ∀ ok, exec (.windowRequestRejected code op count a tag dlen ok) s =
      .next (done s { s with i3c := { s.i3c with reply := none } }))

/-- R316 to R328: the commands of the rings: enabling and disabling, polls, entries, posts, acknowledgement. Model's
choices in it: log entries 66, 102. -/
def Obligations.RingQueues : Prop :=
  ∀ (src : Src) (n : QueueNo) (v : Word) (s : State), up s = true →
    let q := n.toNat
    let wo := wqOfs q
    let co := cqOfs q
    (bit (wqReg q 0 s) 15 = false → bit v 15 = true → fld v 12 8 = 4 →
      ringOk (rgs 1 (wo + 1) 2 s) 16 s = true → ∃ u, exec (.wqEnable src n v) s = .next (done s u) ∧ wqEn q u = true ∧
        wqSize q u = 16 ∧ fld (wqReg q 0 u) 5 0 = fld v 5 0 ∧ (wq q u).initing = true ∧ (wq q u).ready = (wq q s).ready ∧ u.mem = s.mem) ∧
    (bit (wqReg q 0 s) 15 = true → bit v 15 = false → ∃ u, exec (.wqDisable src n v) s = .next (done s u) ∧
      wqEn q u = false ∧ (wq q u).ready = false ∧ (wq q u).polling = false ∧ u.mem = s.mem) ∧
    ((wq q s).initing = true → (wq q s).begun = none → gdWaits (rgs 1 (wo + 1) 2 s) s = false → ∃ u,
      exec (.wqInitComplete n) s = .next (done s u) ∧ (wq q u).ready = true ∧
      (wq q u).initing = false ∧ wqReg q 7 u = 0) ∧
    (∀ ks ws, s.mute.contains (.wq n) = false → (wq q s).ready = true → (wq q s).polling = true → (wq q s).cache = [] → 2 ≤ wqSize q s → wqSize q s ≤ 2 ^ 16 →
      placeRun none none (wqAddr q (wqCi q s) s) 16 s = some ks → wordsAt ks ws s → bit (nth ws 0) 15 = true →
      (∃ ks' ws', placeRun none none (wqAddr q ((wqCi q s + 1) % wqSize q s) s) 16 s = some ks' ∧ wordsAt ks' ws' s ∧
        bit (nth ws' 0) 15 = false) →
      exec (.wqPoll n) s = .next (done s (modWq q (fun x => { x with cache := [(wqCi q s, ws)] })
        (modWq q (fun x => { x with polling := false }) s)))) ∧
    exec (.wqPoke src n 1) s = .next (done s (modWq q (fun x => { x with polling := x.ready }) s)) ∧
    (∀ pre e rest, (wq q s).cache = pre ++ e :: rest → e.1 = v.toNat → (∀ y ∈ pre, y.1 ≠ v.toNat) → pre ≠ [] →
      v.toNat < wqSize q s → exec (.wqInval src n v) s = .next (done s (modWq q (fun x => { x with cache := pre }) s))) ∧
    (∀ i ws, (wq q s).cache = [(i, ws)] → (wq q s).begun = none → wqTurn q s = true →
      (wq q s).remote = false → (wq q s).answer = none → wqMayPost q s = true →
      nth ws 1 = wqReg q 5 s → wqFieldsOk ws = true → fld (nth ws 0) 14 12 = 2 → ∃ u,
      exec (.wqEntryApply n) s = .next (done s u) ∧ (wq q u).cache = [] ∧ wqReg q 5 u = seqNext (wqReg q 5 s) ∧
        wqReg q 7 u = wd ((i + 1) % wqSize q s) ∧
        rgs 1 (wo + 10) 2 u = (rgs 1 (wo + 10) 2 s + 1) % 2 ^ 32) ∧
    (bit (cqCtl q s) 15 = false → (cq q s).ready = false → bit v 15 = true → fld v 12 8 = 4 →
      ringOk (rgs 1 (co + 1) 2 s) 16 s = true → gdWaits (rgs 1 (co + 1) 2 s) s = false →
      ∃ u, exec (.cqEnable src n v) s = .next (done s u) ∧ cqOpen q u = true ∧ cqSize q u = 16 ∧ cqPi q u = 0 ∧
        bit (cqCtl q u) 14 = bit v 14) ∧
    ((∀ w rest, (cq q s).waiting ≠ .wq w :: rest) → exec (.cqPost n) s = .next (done s (addDue (.post q) s))) ∧
    (∃ u, exec (.cqAck src n 1) s = .next (done s u) ∧ (cq q u).round = 0 ∧ (cq q u).timerOn = false ∧
      (cq q u).timerExp = false ∧ u.mem = s.mem) ∧
    ((cq q s).timerOn = true → ∃ u, exec (.cqModerationTimeout n) s = .next (done s u) ∧ (cq q u).timerOn = false ∧
      (cq q u).timerExp = true ∧ (cq q u).asserted = true ∧ u.mem = s.mem)

/-! ### Faults, power, boot, the ember domain -/

/-- R330, R331, R333 to R337, R341, R342, R345, R391: fault control: occurrences, forcing, timers, acknowledgement, windows,
the FAULT pulse, resets of units, and returns to service. Model's choices in it: log entries 67, 71. -/
def Obligations.FaultControl : Prop :=
  ∀ (src : Src) (blk : BlkNo) (i : BitVec 4) (unit v hi : Word) (k : StokerNo) (rf : Bool) (s : State), up s = true →
    let b := blk.toNat
    let n := i.toNat
    let f := flt (16 * b + n) s
    exec (.faultOccurrence blk i unit rf) s = .next (done s (addDue (.fault b n true false unit rf) (detectorSign b n s))) ∧
    ((fltSources (blkOf b)).contains n = true → masked b n s = false →
      let u := settleOne (.fault b n true false unit rf) s
      (bit (rg b 0x7002 s) n = false → u.due = s.due ∧ u.mem = s.mem ∧ bit (rg b 0x7000 u) n = true ∧
        rgs b 0x7006 2 u = (rgs b 0x7006 2 s + 1) % 2 ^ 32) ∧
      (bit (rg b 0x7002 s) n = true → bit (rg b 0x7004 s) n = false → classPending b n (fld (rg b (fltOfs n 0) s) 7 4) s = none →
        rf = false → f.winOpen = false → fld (rg b (fltOfs n 0) s) 15 13 = 1 → 1 ≤ fld (rg b (fltOfs n 0) s) 12 10 →
        1 ≤ fld (rg 6 (0x10 + 2 * fld (rg b (fltOfs n 0) s) 7 4) s) 7 0 →
        bit (rg b 0x7004 u) n = true ∧ (flt (16 * b + n) u).level = 1 ∧ fld (rg b (fltOfs n 2) u) 14 12 = 1 ∧
          fld (rg b (fltOfs n 2) u) 7 0 = 1 ∧ u.mem = s.mem)) ∧
    (v &&& srcMask b &&& ~~~(rg b 0x7003 s) = 0 → exec (.faultForce src blk v) s = .next (done s
      (setRg b 0x7003 (v &&& srcMask b) (cfgNote src (ra b 0x7003) v s)))) ∧
    ((fltSources (blkOf b)).contains n = true → bit v n = true → bit (rg b 0x7003 s) n = false →
      ∃ u, exec (.faultForce src blk v) s = .next (done s u) ∧ .fault b n false true f.unit false ∈ u.due ∧
        rg b 0x7003 u = v &&& srcMask b) ∧
    (f.timerOn = true → bit (rg b 0x7004 s) n = true → bit (rg b 0x7005 s) 0 = false → f.level = 1 →
      2 ≤ fld (rg b (fltOfs n 0) s) 12 10 → ∃ u, exec (.reactionTimerExpiry blk i) s = .next (done s u) ∧
        (flt (16 * b + n) u).level = 2 ∧ fld (rg b (fltOfs n 2) u) 14 12 = 2 ∧ u.fc.pulse = true ∧ u.mem = s.mem) ∧
    ((fltSources (blkOf b)).contains n = true → bit v n = true → bit (rg b 0x7004 s) n = true →
      ∃ u, exec (.faultAcknowledge src blk v) s = .next (done s u) ∧ bit (rg b 0x7004 u) n = false ∧
        (flt (16 * b + n) u).level = 0 ∧ (flt (16 * b + n) u).timerOn = false ∧ u.mem = s.mem) ∧
    (f.winOpen = true → exec (.classWindowClose blk i) s = .next (done s
      (setRgFld b (fltOfs n 2) 7 0 0 (modFlt (16 * b + n) (fun x => { x with winOpen := false }) s)))) ∧
    exec .faultPulseEnd s = .next (done s { s with fc := { s.fc with pulse := false } }) ∧
    exec (.faultMinNs0Write src v) s = .next (done s (stageHigh src (ra 6 2) v (cfgNote src (ra 6 2) v s))) ∧
    ((s.staged.find? fun kv => kv.1 == stageKey src (ra 6 2)) = some (stageKey src (ra 6 2), hi) →
      100 ≤ hi.toNat * 65536 + v.toNat → hi.toNat * 65536 + v.toNat ≤ 1000000 →
      ∃ u, exec (.faultMinNs1Write src v) s = .next (done s u) ∧ rg 6 2 u = hi ∧ rg 6 3 u = v ∧ u.mem = s.mem) ∧
    (stkHeld k.toNat s = false → stkRetired k.toNat s = false → stkInReset k.toNat s = false →
      ∃ u, exec (.unitResetRequest src (wd (0x2000 + k.toNat))) s = .next (done s u) ∧ (1, k.toNat) ∈ u.fc.inReset ∧
        (1, k.toNat) ∈ u.fc.shadows ∧ (stk k.toNat u).ic = [] ∧ u.mem = s.mem) ∧
    (s.fc.inReset.contains (1, k.toNat) = true → ∃ u, exec (.unitResetEnd 1 k) s = .next (done s u) ∧
      u.fc.inReset = s.fc.inReset.filter (fun x => x != (1, k.toNat)) ∧ u.mem = s.mem) ∧
    (s.fc.inReset.contains (1, k.toNat) = false → stkHeld k.toNat s = false → exec (.resetShadowEnd 1 k) s = .next (done s
      { s with fc := { s.fc with shadows := s.fc.shadows.filter fun x => x != (1, k.toNat) } })) ∧
    (∃ u, exec (.retirementReturn src 1 v) s = .next (done s u) ∧ rg 6 0x101 u = rg 6 0x101 s &&& ~~~v ∧ u.mem = s.mem)

/-- R346 to R350, R42, R211: the soot log, self-tests, and the start of an ash slot. Model's choices in it: log entries 68,
76. -/
def Obligations.SootAndSelfTest : Prop :=
  ∀ (src : Src) (v : Word) (s : State), up s = true →
    let t := s.fc.test
    (∀ r rest, s.fc.soot = r :: rest → s.pwr.emberOk = true → let e := (s.fc.seq.toNat - 1) % 4096
      ∃ u, exec .sootEntryWrite s = .next (done s u) ∧ u.fc.soot = rest ∧ u.fc.seq = s.fc.seq + 1 ∧
        ((span (8 * e) 8).map fun k => mramGet k u) = [r.w0, r.w1] ++ wordsOf 2 s.fc.seq.toNat ++ wordsOf 4 r.dtb ∧
        (∀ k, k / 8 ≠ e → mramGet k u = mramGet k s) ∧ u.mem = s.mem ∧ u.regs = s.regs) ∧
    (let e := fld v 11 0
     ∃ u, exec (.sootLoad src v) s = .next (done s u) ∧
      ((span 0x48 8).map fun o => rg 6 o u) = ((span (8 * e) 8).map fun k => mramGet k s) ∧ u.mem = s.mem) ∧
    (t.st ≠ .running → t.st ≠ .deferred → fld v 15 12 ≠ 6 → testServes (fld v 15 12) (blkOf (fld v 11 0)) = true →
      ownsActive (blkOf (fld v 11 0)) s = false → exec (.selfTestRequest src v) s = .next (done s
        (modTest (fun _ => { st := .running, kind := BitVec.ofNat 4 (fld v 15 12), blk := BitVec.ofNat 12 (fld v 11 0) })
          (cfgNote src (ra 6 0x30) v s)))) ∧
    (t.st = .deferred → t.kind ≠ 6 → s.ft.inAsh = true → t.steps < testSteps t.kind.toNat →
      (ashCond t.kind.toNat (blkOf t.blk.toNat) s = true → exec .selfTestStep s = .next (done s
        (modTest (fun x => { x with steps := x.steps + 1, skipped := 0 }) s))) ∧
      (ashCond t.kind.toNat (blkOf t.blk.toNat) s = false → t.skipped < 15 → exec .selfTestStep s = .next (done s
        (modTest (fun x => { x with skipped := x.skipped + 1 }) s)))) ∧
    (t.st = .running → exec (.selfTestComplete true) s = .next (done s
      (modTest (fun x => { x with st := .pass, steps := testSteps x.kind.toNat }) s))) ∧
    (s.ft.running = true → s.ft.inAsh = false → ∃ u, exec (.ashSlotStart v) s = .next (done s u) ∧ u.ft.inAsh = true ∧
      (∀ b, b < 16 → bankDue b s = true → (grate (4 * b) u).calAge = 0 ∧
        bit (rg (bGrt (4 * b)) 3 u) 15 = bit v b) ∧ u.mem = s.mem)

/-- R21, R226, R233, R240, R375 to R379, R382 to R384: reset, clocks, rails, monitors and the boundary-scan port. Model's
choices in it: log entries 69, 70. -/
def Obligations.PowerAndScan : Prop :=
  ∀ (bs : BitVec 2) (safeN : Bool) (mv vio ts : List Word) (slot : BitVec 2) (hash : BitVec 256) (code : Byte)
    (ch : FMap Bool) (s : State),
    let p := s.pwr
    let cold (u : State) : Prop := up u = false ∧ u.regs = [] ∧ u.ctx = [] ∧ u.sch = [] ∧ u.stk = [] ∧ u.pins = [] ∧
      u.grates = [] ∧ u.fifos = [] ∧ u.ft = {} ∧ u.boot = {} ∧ u.safe = {} ∧ u.mram = s.mram ∧ u.tap = s.tap ∧
      u.fc.soot = s.fc.soot ∧ ∀ b, 0x40000000 ≤ b → getByte b u.mem = none
    (∃ u, exec .resetAssert s = .next (done s u) ∧ u.pwr.resetN = false ∧ cold u) ∧
    (∃ u, exec .railUndervoltage s = .next (done s u) ∧ u.pwr.railLow = true ∧ cold u) ∧
    (p.resetN = false → exec (.resetRelease bs safeN) s = .next (done s { s with
      pwr := { p with resetN := true, bootsel := bs, safeN := safeN }, boot := { s.boot with src := bs } })) ∧
    (p.resetN = true → exec .railRecovery s = .next (done s { s with
      pwr := { p with railLow := false }, boot := { s.boot with src := p.bootsel } })) ∧
    (p.resetN = true → p.railLow = false → p.pll = false → p.tbLost = false → p.safeN = true →
      ∃ u, exec .timebasePllLock s = .next (done s u) ∧ up u = true ∧ u.boot = { s.boot with stage := 1 } ∧
        (∀ k, k < 0x20000000 → memWord k u = some 0 ∧ mget 0 k u.marks = 0) ∧
        (p.emberOk = true → valOf [mramGet 0x80D6 u, mramGet 0x80D7 u] =
          (valOf [mramGet 0x80D6 s, mramGet 0x80D7 s] + 1) % 2 ^ 32)) ∧
    (up s = true → mv.length = 7 → vio.length = 16 → ∃ u, exec (.voltageMonitorSample mv vio) s = .next (done s u) ∧
      ((span 0x110 7).map fun o => rg 7 o u) = mv ∧ ((span 0x120 16).map fun o => rg 7 o u) = vio ∧ u.mem = s.mem ∧
      ((∀ m, m < 7 → railBad m (nth mv m).toNat = false) → u.due = s.due)) ∧
    (up s = true → ts.length = 8 → ∃ u, exec (.temperatureSample ts) s = .next (done s u) ∧
      ((span 0x100 8).map fun o => rg 7 o u) = ts ∧ u.mem = s.mem ∧
      (p.hot = false → (∃ t ∈ ts, gradeMax < sx 16 t.toNat) → .fault 7 0 true false 0 false ∈ u.due) ∧
      ((∀ t ∈ ts, sx 16 t.toNat ≤ gradeMax) → u.due = s.due)) ∧
    exec .idcode s = .next (done s { s with tap := { s.tap with ir := 0x01, capture := idcode.setWidth 258 } }) ∧
    exec (.samplePreload ch) s = .next (done s { s with tap := { s.tap with ir := 0x02, chain := ch } }) ∧
    exec .extest s = .next (done s { s with tap := { s.tap with ir := 0x03 } }) ∧
    exec .clamp s = .next (done s { s with tap := { s.tap with ir := 0x04, capture := 0 } }) ∧
    exec .highz s = .next (done s { s with tap := { s.tap with ir := 0x05, capture := 0 } }) ∧
    exec (.bypass code) s = .next (done s { s with tap := { s.tap with ir := code, capture := 0 } }) ∧
    exec .tapReset s = .next (done s { s with tap := { s.tap with ir := 0x01, capture := 0 } }) ∧
    (p.resetN = false → (s.tap.keys.any fun kv => kv.1 == slot.toNat) = false → exec (.fusekey slot hash) s = .next (done s
      { s with tap := { s.tap with ir := 0x20, keys := mput slot.toNat hash s.tap.keys, capture := slot ++ hash } })) ∧
    (p.resetN = true → exec (.fusekey slot hash) s = .next (done s { s with tap := { s.tap with ir := 0x20 } }))

/-- R352 to R363: the boot loader's stages, records and pushes. Model's choices in it: log entries 51, 53. -/
def Obligations.BootLoader : Prop :=
  ∀ (src : Src) (inf : BootInfo) (data : List Word) (v : Word) (s : State), up s = true →
    let b := s.boot
    (b.stage = 1 → inf.katOk = true → b.src.toNat < 2 → ∃ u, exec (.bootStageComplete inf) s = .next (done s u) ∧
      u.boot = { b with stage := 2, bankB := b.src == 1 } ∧ u.sec.katOk = true ∧ u.mem = s.mem ∧
      bit (rg 4 0 u) 14 = (idxNewest s).isSome) ∧
    (b.stage = 2 → inf.flashOk = false → b.pushing = false → b.fallback = false → b.bankB = false → s.pwr.safeN = true →
      ∃ u, exec (.bootStageComplete inf) s = .next (done s u) ∧ u.boot.stage = 2 ∧ u.boot.bankB = true ∧
        u.boot.fallback = true ∧ u.boot.causeA = 1 ∧ u.boot.causeB = b.causeB ∧ u.ctx = [] ∧ u.i3c.da = s.i3c.da) ∧
    (b.stage = 2 → inf.flashOk = true → headerOk inf.words (inf.capWords / 2) = true →
      exec (.bootStageComplete inf) s = .next (done s { s with boot := { b with
        octal := inf.octal, capWords := inf.capWords, img := imgTake inf.words, stage := 3, rereads := 0 } })) ∧
    (b.stage = 3 → keyOk b.img s = false → b.pushing = true → s.pwr.safeN = true → ∃ u,
      exec (.bootStageComplete inf) s = .next (done s u) ∧ u.boot.stage = 9 ∧ u.boot.causeA = 3) ∧
    (b.stage = 5 → b.recNo = imgNrec b.img → exec (.bootStageComplete inf) s = .next (done s { s with
      boot := { b with stage := 6 } })) ∧
    (let e := dirEnt b.img b.recNo
     b.stage = 5 → b.recNo ≠ imgNrec b.img → b.pushing = false → entIsReg e = true →
      b.rec_.length + data.length < entLen e → ∃ u, exec (.bootRecordRead data) s = .next (done s u) ∧
        u.boot = { b with rec_ := b.rec_ ++ data } ∧ rg 3 6 u = wd b.recNo ∧ u.mem = s.mem) ∧
    (b.stage = 9 ∨ b.stage = 10 →
      (∃ u, exec (.bootRestart src) s = .next (done s u) ∧
        u.boot = { stage := 1, src := b.src, octal := b.octal, capWords := b.capWords } ∧
        ∀ k, k < 0x20000000 → memWord k u = some 0) ∧
      exec (.bootPushMode src) s = .next (done s { s with boot := { b with
        stage := 9, pushing := true, pushSrc := some (srcNo src), img := [], pushed := [], rec_ := [], recNo := 0
        rereads := 0 } })) ∧
    (b.stage ≠ 9 → b.stage ≠ 10 → exec (.bootRestart src) s = .next (done s (setRgBit 3 0 6 true s))) ∧
    (b.stage = 9 → b.pushSrc = some (srcNo src) → b.pushed = [] → b.img.length < 63 → b.pushing = true →
      exec (.bootPushWord src v) s = .next (done s { s with boot := { b with img := b.img ++ [v] } })) ∧
    (b.stage = 10 → exec (.bootPushWord src v) s = .next (done s (setRgBit 3 0 5 true s)))

/-- R365 to R370: the ember window, the signing index, and quotes. Model's choices in it: log entries 11, 12, 54. -/
def Obligations.EmberAndQuotes : Prop :=
  ∀ (src : Src) (n : BitVec 5) (v : Word) (s : State),
    let a := embAddr s
    let c := s.sec
    (up s = true →
      (∃ u, exec (.emberDataRead src) s = .next (done s u) ∧ u.sec.embRead = mramGet a s ∧
        embAddr u = (a + 1) % 0x40000 ∧ u.mram = s.mram ∧ u.mem = s.mem) ∧
      (0x10000 ≤ a → ∃ u, exec (.emberDataWrite src v) s = .next (done s u) ∧ mramGet a u = v ∧
        (∀ k, k ≠ a → mramGet k u = mramGet k s) ∧ embAddr u = (a + 1) % 0x40000 ∧ u.sec.mramBusy = true) ∧
      (a < 0x10000 → ∃ u, exec (.emberDataWrite src v) s = .next (done s u) ∧ u.mram = s.mram ∧ bit (rg 5 0 u) 6 = true)) ∧
    exec .mramWriteComplete s = .next (done s { s with sec := { c with mramBusy := false } }) ∧
    (∀ k e, idxNewest s = some (k, e) → ∃ u, exec .emberSupplyReturn s = .next (done s u) ∧ u.pwr.emberOk = true ∧
      u.sec.next = e ∧ u.sec.resEnd = e ∧ u.mram = s.mram) ∧
    (up s = true →
      (1 ≤ n.toNat → n.toNat ≤ 16 → quoteRuns s = false → c.katOk = true → bit (rg 4 0 s) 14 = true → c.next < 2 ^ 40 →
        ∃ u, exec (.quoteStart src (n.setWidth 16)) s = .next (done s u) ∧ quoteRuns u = true ∧ u.sec.g0 = c.cfgGen ∧
          u.sec.d = s.ft.dtb ∧ u.sec.tries = 1 ∧
          u.sec.nonce = (span 0 n.toNat).map (fun i => mget 0 (nonceKey src i) c.nonces) ∧ u.regs = s.regs) ∧
      (quoteRuns s = true → c.signing = false → c.cfgGen = c.g0 → ∃ u, exec .quoteDigestComplete s = .next (done s u) ∧
        u.sec.signing = true ∧ u.sec.unstable = false ∧ u.sec.words.take 3 = [0x5154, 1, 0x139B] ∧
        (u.sec.words.drop 50).take 16 = (span 0 16).map (fun i => nth (Config.shake256 (cfgBytes s)) i) ∧ u.mem = s.mem ∧
        u.regs = s.regs) ∧
      (quoteRuns s = true → c.signing = true → c.next < 2 ^ 40 → c.words.length = 72 → ∃ u,
        exec .quoteSignComplete s = .next (done s u) ∧ u.sec.state = 2 ∧ u.sec.next = c.next + 1 ∧
          rg 4 4 u = rg 4 4 s + 1 ∧ ((span 0x1000 72).map fun o => rg 4 o u) = c.words ∧ u.mem = s.mem))

/-- R6 to R8, R14 to R16, R371: a write by its address to registers that only store: the value is kept as far as their
fields go, and a configuration-class write is counted and logged whatever becomes of it. Model's choices in it: log entry
71. -/
def Obligations.RegisterWrites : Prop :=
  ∀ (src : Src) (n : QueueNo) (h : HearthNo) (w : BitVec 6) (c : BitVec 4) (k : StokerNo) (v : Word) (s : State),
    up s = true → booted s = true →
    let a := ra 1 (cqOfs n.toNat + 4)
    let g := s.sec.cfgGen
    let e := 0x4000 + 8 * (g % 1024)
    (∃ u, exec (.registerWrite src (BitVec.ofNat 32 a) v) s = .next (done s u) ∧ reg a u = v ∧ u.mem = s.mem ∧
      u.sec.cfgGen = (g + 1) % 2 ^ 64 ∧ rgs 4 e 2 u = a ∧ rg 4 (e + 2) u = v ∧ rg 4 (e + 3) u = logSrc src s ∧
      rgs 4 (e + 4) 4 u = s.ft.dtb % 2 ^ 64 ∧ ∀ x, x ≠ a → ¬ (ra 4 e ≤ x ∧ x < ra 4 e + 8) → reg x u = reg x s) ∧
    (let en := ra (bHrt h.toNat) (0x100 + w.toNat)
     ∃ u, exec (.registerWrite src (BitVec.ofNat 32 en) v) s = .next (done s u) ∧ (w ≠ 0 → reg en u = v) ∧ u.mem = s.mem ∧
      u.sec = s.sec ∧ ∀ x, x ≠ en → reg x u = reg x s) ∧
    (∃ u, exec (.registerWrite src (BitVec.ofNat 32 (ra (bStk k.toNat) (0x606 + 0x20 * c.toNat))) v) s = .next (done s u) ∧
      rg (bStk k.toNat) (0x606 + 0x20 * c.toNat) u = v &&& 0x00FF ∧ u.mem = s.mem) ∧
    (∃ u, exec (.registerWrite src (BitVec.ofNat 32 (ra (bHrt h.toNat) 0x400)) v) s = .next (done s u) ∧
      u.regs = s.regs ∧ u.mem = s.mem)

/-! ### The device as a whole -/

/-- A step runs the command at the front of the queue on the rest of it; with no command waiting and nothing owed, one gc
passes on the DTB while the timebase runs, and nothing else changes (the idle step is the model's choice, log entry 3). -/
def Obligations.StepRunsFront : Prop :=
  ∀ (c : Instr) (rest : List Instr) (s : State),
    step { s with pending := c :: rest } = exec c { s with pending := rest } ∧
    (s.pending = [] → s.due = [] → (up s = false ∨ s.pwr.tbLost = true → step s = .next s) ∧
      (up s = true → s.pwr.tbLost = false → ∃ u, step s = .next u ∧ u = { s with ft := u.ft } ∧
        (s.ft.slew = 0 → s.ft.fine = 0 → u.ft.dtb = (s.ft.dtb + 1) % 2 ^ 64 ∧ u.ft.fine = 0)))

/-- Every command completes in every state: no command stops the device, and none takes a command out of the queue or puts
one in. Model's choices in it: log entries 4, 77. -/
def Obligations.EveryCommandCompletes : Prop :=
  ∀ (c : Instr) (s : State), ∃ u, exec c s = .next u ∧ u.pending = s.pending

/-- A command that finds the device without clock, supply or with RESET_N low changes nothing, but for the commands of
power, clock, boundary scan, the ember domain and the damper, the pin edges it takes among them. Model's choices in it:
log entries 4, 116. -/
def Obligations.NothingRunsInReset : Prop :=
  ∀ (c : Instr) (s : State), up s = false →
    (match c with
     | .resetAssert | .resetRelease _ _ | .timebasePllLock | .timebaseLoss | .railUndervoltage | .railRecovery | .idcode
     | .samplePreload _ | .extest | .clamp | .highz | .fusekey _ _ | .bypass _ | .tapReset | .mramWriteComplete
     | .emberSupplyReturn | .safeNAsserted | .safeNRelease | .damperRuleTrip _ _ | .ruleConditionFalse _ | .ruleParityError _
     | .pinEdgeAccepted _ _ _ _ => False
     | _ => True) → exec c s = .next s

/-- An invariant: the commands that wait are well formed, and stay so. Model's choices in it: log entry 4. -/
def Obligations.QueueStaysWellFormed : Prop := ∀ s t : State, QueueWf s → step s = .next t → QueueWf t

/-- An invariant: memory keeps its canonical form under every step. Model's choices in it: log entry 8. -/
def Obligations.MemoryStaysCanonical : Prop :=
  ∀ s t : State, Memory.wf s.mem = true → step s = .next t → Memory.wf t.mem = true

/-- The state after reset: no clock and no command; memory lists nothing and is canonical; and the values that R21 to R35,
R4, R45 and R110 give: the DTB and the frame number, the frame timing, every subchannel idle, every context inactive.
Model's choices in it: log entries 2, 9. -/
def Obligations.ResetState : Prop :=
  let s := State.reset
  up s = false ∧ s.pending = [] ∧ QueueWf s ∧ s.mem = [] ∧ Memory.wf s.mem = true ∧ s.regs = [] ∧ s.ft.dtb = 0 ∧
  s.ft.frmNum = 0xFFFFFFFFFFFF ∧ s.ft.running = false ∧ rgs 0 2 2 s = 125000 ∧ s.ft.period = 125000 ∧
  (∀ k, (sch k s).st = .idle ∧ (ctx k s).run = .inactive ∧ (stk k s).cur = none ∧ (chan k s).st = .idle) ∧
  (∀ k, (fifo k s).q = [] ∧ (pin k s).oe = false ∧ (grate k s).run = false ∧ (lane k s).own = none) ∧ s.safe.on = false ∧
  s.boot.stage = 0 ∧ (∀ a, reg a s = regReset a)

/-- The encodings of the stoker (R139 to R145): the bytes of every well-formed instruction with at most 4 prefixes decode to
it, with every operand at every value. -/
def Obligations.InstructionRoundTrip : Prop :=
  ∀ (c : Instr) (sub : Sub) (bs : List Byte) (i : Iss) (body : List Byte), c.wf = true → encodeIns c = some (sub, bs) →
    encBody c = some (i, body) → prefixes i ≤ 4 → decodeIns sub bs = some c

/-- The encoding of a microword (R203, R205, R206): the 48 bits of every microoperation of every OP up to 0x20, with every
value of its fields and good parity, decode to it, and encoding it gives those bits back. -/
def Obligations.MicrowordRoundTrip : Prop :=
  ∀ (g : GrateNo) (op : BitVec 6) (u : Micro), u.parityOk = true → op.toNat ≤ 0x20 →
    ∃ c, insMicro g op.toNat u = some c ∧ encodeMicro c = some (g, microBits op u) ∧
      decodeMicro g (microBits op u) = some c
end

