-- ==== Sys2Proof/Laws/Maps.lean ====
section
/-! SUPPORT. Laws of the sparse maps: a read after a write, and the canonical form. -/
set_option Elab.async false
namespace Sys2Proof.Machine
open Sys2Proof

variable {α : Type}

@[simp] theorem mget_nil (d : α) (k : Nat) : mget d k [] = d := rfl

@[simp] theorem mget_mput_same (d : α) (k : Nat) (v : α) (m : FMap α) : mget d k (mput k v m) = v := by
  induction m with
  | nil => simp [mput, mget]
  | cons a r ih =>
    obtain ⟨k', v'⟩ := a
    unfold mput
    split
    · simp [mget]
    · split
      · simp [mget]
      · simp [mget, *]

theorem mget_mput_ne (d : α) {k j : Nat} (v : α) (m : FMap α) (h : j ≠ k) : mget d j (mput k v m) = mget d j m := by
  induction m with
  | nil => simp [mput, mget, Ne.symm h]
  | cons a r ih =>
    obtain ⟨k', v'⟩ := a
    unfold mput
    split
    · simp [mget, Ne.symm h]
    · split
      · rename_i h2; subst h2; simp [mget, Ne.symm h]
      · simp only [mget, ih]

@[simp] theorem mget_merase_same (d : α) (k : Nat) (m : FMap α) : mget d k (merase k m) = d := by
  induction m with
  | nil => rfl
  | cons a r ih =>
    obtain ⟨k', v'⟩ := a
    unfold merase
    split
    · exact ih
    · rename_i h; simp [mget, h, ih]

theorem mget_merase_ne (d : α) {k j : Nat} (m : FMap α) (h : j ≠ k) : mget d j (merase k m) = mget d j m := by
  induction m with
  | nil => rfl
  | cons a r ih =>
    obtain ⟨k', v'⟩ := a
    unfold merase
    split
    · rename_i h2; subst h2; simp [mget, Ne.symm h, ih]
    · simp only [mget, ih]

variable [DecidableEq α]

@[simp] theorem mget_mset_same (d : α) (k : Nat) (v : α) (m : FMap α) : mget d k (mset d k v m) = v := by
  unfold mset; split
  · rename_i h; simp [h]
  · simp

theorem mget_mset_ne (d e : α) {k j : Nat} (v : α) (m : FMap α) (h : j ≠ k) : mget d j (mset e k v m) = mget d j m := by
  unfold mset; split
  · exact mget_merase_ne d m h
  · exact mget_mput_ne d v m h

@[simp] theorem mget_mmod_same (d : α) (k : Nat) (f : α → α) (m : FMap α) : mget d k (mmod d k f m) = f (mget d k m) := by
  simp [mmod]

theorem mget_mmod_ne (d : α) {k j : Nat} (f : α → α) (m : FMap α) (h : j ≠ k) : mget d j (mmod d k f m) = mget d j m :=
  mget_mset_ne d d _ m h

/-! ### The canonical form -/

omit [DecidableEq α] in
theorem keysAbove_mono {lo lo' : Nat} {m : FMap α} (h : keysAbove lo m = true) (hl : lo' ≤ lo) : keysAbove lo' m = true := by
  cases m with
  | nil => rfl
  | cons a r =>
    obtain ⟨k, v⟩ := a
    simp only [keysAbove, Bool.and_eq_true, decide_eq_true_eq] at h ⊢
    exact ⟨Nat.le_trans hl h.1, h.2⟩

omit [DecidableEq α] in
theorem keysAbove_mput {lo k : Nat} (v : α) {m : FMap α} (h : keysAbove lo m = true) (hk : lo ≤ k) :
    keysAbove lo (mput k v m) = true := by
  induction m generalizing lo with
  | nil => simp [mput, keysAbove, hk]
  | cons a r ih =>
    obtain ⟨k', v'⟩ := a
    simp only [keysAbove, Bool.and_eq_true, decide_eq_true_eq] at h
    unfold mput
    split
    · simp only [keysAbove, Bool.and_eq_true, decide_eq_true_eq]
      exact ⟨hk, by omega, h.2⟩
    · split
      · rename_i h1 h2; subst h2
        simp only [keysAbove, Bool.and_eq_true, decide_eq_true_eq]
        exact h
      · simp only [keysAbove, Bool.and_eq_true, decide_eq_true_eq]
        exact ⟨h.1, ih h.2 (by omega)⟩

omit [DecidableEq α] in
theorem keysAbove_filter {lo : Nat} (p : Nat × α → Bool) {m : FMap α} (h : keysAbove lo m = true) :
    keysAbove lo (m.filter p) = true := by
  induction m generalizing lo with
  | nil => rfl
  | cons a r ih =>
    obtain ⟨k', v'⟩ := a
    simp only [keysAbove, Bool.and_eq_true, decide_eq_true_eq] at h
    rw [List.filter_cons]
    split
    · simp only [keysAbove, Bool.and_eq_true, decide_eq_true_eq]
      exact ⟨h.1, ih h.2⟩
    · exact keysAbove_mono (ih h.2) (by omega)

omit [DecidableEq α] in
theorem merase_eq_filter (k : Nat) (m : FMap α) : merase k m = m.filter fun a => decide (a.1 ≠ k) := by
  induction m with
  | nil => rfl
  | cons a r ih =>
    obtain ⟨k', v'⟩ := a
    unfold merase
    rw [List.filter_cons]
    split
    · rename_i h; simp [h, ih]
    · rename_i h; simp [h, ih]

omit [DecidableEq α] in
theorem keysAbove_merase {lo k : Nat} {m : FMap α} (h : keysAbove lo m = true) : keysAbove lo (merase k m) = true := by
  rw [merase_eq_filter]; exact keysAbove_filter _ h

omit [DecidableEq α] in
theorem mem_mput {k : Nat} {v : α} {m : FMap α} {a : Nat × α} (h : a ∈ mput k v m) : a = (k, v) ∨ a ∈ m := by
  induction m with
  | nil => simpa [mput] using h
  | cons b r ih =>
    obtain ⟨k', v'⟩ := b
    unfold mput at h
    split at h
    · simpa using h
    · split at h
      · rcases List.mem_cons.mp h with h | h
        · exact .inl h
        · exact .inr (List.mem_cons_of_mem _ h)
      · rcases List.mem_cons.mp h with h | h
        · exact .inr (by simp [h])
        · rcases ih h with h | h
          · exact .inl h
          · exact .inr (List.mem_cons_of_mem _ h)

end Sys2Proof.Machine
end

