-- ==== Sys2Proof/Laws/Memory.lean ====
section
/-! SUPPORT. Laws of memory: a byte or word read after a write (R10, R228), and the canonical form, which every memory
operation keeps. -/
set_option Elab.async false
namespace Sys2Proof.Machine
open Sys2Proof

theorem getByte_mput_same (i : Nat) (b : Byte) (m : List Host.Cell) : getByte i (mput i b m) = some b := by
  induction m with
  | nil => simp [mput, getByte]
  | cons a r ih =>
    obtain ⟨k, v⟩ := a
    unfold mput
    split
    · simp [getByte]
    · split
      · simp [getByte]
      · simp [getByte, *]

theorem getByte_mput_ne {i j : Nat} (b : Byte) (m : List Host.Cell) (h : j ≠ i) : getByte j (mput i b m) = getByte j m := by
  induction m with
  | nil => simp [mput, getByte, Ne.symm h]
  | cons a r ih =>
    obtain ⟨k, v⟩ := a
    unfold mput
    split
    · simp [getByte, Ne.symm h]
    · split
      · rename_i h2; subst h2; simp [getByte, Ne.symm h]
      · simp only [getByte, ih]

theorem getByte_merase_same (i : Nat) (m : List Host.Cell) : getByte i (merase i m) = memDflt i := by
  induction m with
  | nil => rfl
  | cons a r ih =>
    obtain ⟨k, v⟩ := a
    unfold merase
    split
    · exact ih
    · rename_i h; simp [getByte, h, ih]

theorem getByte_merase_ne {i j : Nat} (m : List Host.Cell) (h : j ≠ i) : getByte j (merase i m) = getByte j m := by
  induction m with
  | nil => rfl
  | cons a r ih =>
    obtain ⟨k, v⟩ := a
    unfold merase
    split
    · rename_i h2; subst h2; simp [getByte, Ne.symm h, ih]
    · simp only [getByte, ih]

@[simp] theorem getByte_putByte_same (i : Nat) (b : Byte) (m : List Host.Cell) : getByte i (putByte i b m) = some b := by
  unfold putByte; split
  · rename_i h; rw [getByte_merase_same, h]
  · exact getByte_mput_same i b m

theorem getByte_putByte_ne {i j : Nat} (b : Byte) (m : List Host.Cell) (h : j ≠ i) :
    getByte j (putByte i b m) = getByte j m := by
  unfold putByte; split
  · exact getByte_merase_ne m h
  · exact getByte_mput_ne b m h

/-- A byte outside the stored word stays. -/
theorem getByte_memPut_ne {b k : Nat} (w : Word) (s : State) (h : b / 2 ≠ k) :
    getByte b (memPut k w s).mem = getByte b s.mem := by
  simp only [memPut]
  rw [getByte_putByte_ne _ _ (by omega), getByte_putByte_ne _ _ (by omega)]

/-- A stored word reads back. -/
@[simp] theorem memWord_memPut_same (k : Nat) (w : Word) (s : State) : memWord k (memPut k w s) = some w := by
  simp only [memWord, memPut]
  rw [getByte_putByte_ne _ _ (by omega), getByte_putByte_same, getByte_putByte_same]
  simp only [Option.some.injEq]
  apply BitVec.eq_of_getElem_eq
  intro i hi
  simp only [BitVec.getElem_append, BitVec.getElem_setWidth, BitVec.getLsbD_ushiftRight]
  split
  · exact BitVec.getLsbD_eq_getElem hi
  · rw [show 8 + (i - 8) = i by omega]; exact BitVec.getLsbD_eq_getElem hi

theorem memWord_memPut_ne {k j : Nat} (w : Word) (s : State) (h : j ≠ k) : memWord j (memPut k w s) = memWord j s := by
  simp only [memWord]
  rw [getByte_memPut_ne w s (by omega), getByte_memPut_ne w s (by omega)]

/-- A stored error of the word is gone (R234, R235). -/
@[simp] theorem marks_memPut_same (k : Nat) (w : Word) (s : State) : mget 0 k (memPut k w s).marks = 0 :=
  mget_merase_same 0 k s.marks

theorem marks_memPut_ne {k j : Nat} (w : Word) (s : State) (h : j ≠ k) :
    mget 0 j (memPut k w s).marks = mget 0 j s.marks :=
  mget_merase_ne 0 s.marks h

/-! ### The canonical form -/

theorem Memory.wf_iff (m : List Host.Cell) :
    Memory.wf m = true ↔ keysAbove 0 m = true ∧ ∀ c ∈ m, memDflt c.1 ≠ some c.2 := by
  simp [Memory.wf]

theorem Memory.wf_nil : Memory.wf [] = true := rfl

theorem Memory.wf_putByte (i : Nat) (b : Byte) {m : List Host.Cell} (h : Memory.wf m = true) :
    Memory.wf (putByte i b m) = true := by
  rw [Memory.wf_iff] at h ⊢
  unfold putByte; split
  · refine ⟨keysAbove_merase h.1, fun c hc => h.2 c ?_⟩
    rw [merase_eq_filter] at hc
    exact (List.mem_filter.mp hc).1
  · rename_i hd
    refine ⟨keysAbove_mput b h.1 (Nat.zero_le i), fun c hc => ?_⟩
    rcases mem_mput hc with rfl | hc
    · exact hd
    · exact h.2 c hc

theorem Memory.wf_filter (p : Host.Cell → Bool) {m : List Host.Cell} (h : Memory.wf m = true) :
    Memory.wf (m.filter p) = true := by
  rw [Memory.wf_iff] at h ⊢
  exact ⟨keysAbove_filter p h.1, fun c hc => h.2 c (List.mem_filter.mp hc).1⟩

theorem Memory.wf_memPut (k : Nat) (w : Word) {s : State} (h : Memory.wf s.mem = true) :
    Memory.wf (memPut k w s).mem = true :=
  Memory.wf_putByte _ _ (Memory.wf_putByte _ _ h)

theorem Memory.wf_memPuts (k : Nat) (ws : List Word) {s : State} (h : Memory.wf s.mem = true) :
    Memory.wf (memPuts k ws s).mem = true := by
  induction ws generalizing k s with
  | nil => exact h
  | cons w ws ih => exact ih (k + 1) (Memory.wf_memPut k w h)

end Sys2Proof.Machine
end

