-- ==== Sys2Proof/Laws/State.lean ====
section
/-! SUPPORT. What the updates of State leave as it is: one law per field and update, true by rfl. -/
set_option Elab.async false
namespace Sys2Proof.Machine
open Sys2Proof

section
variable (a : Nat) (v : Word) (s : State)
@[simp] theorem setReg_pending : (setReg a v s).pending = s.pending := rfl
@[simp] theorem setReg_due : (setReg a v s).due = s.due := rfl
@[simp] theorem setReg_free : (setReg a v s).free = s.free := rfl
@[simp] theorem setReg_pwr : (setReg a v s).pwr = s.pwr := rfl
@[simp] theorem setReg_ft : (setReg a v s).ft = s.ft := rfl
@[simp] theorem setReg_shadowA : (setReg a v s).shadowA = s.shadowA := rfl
@[simp] theorem setReg_shadowB : (setReg a v s).shadowB = s.shadowB := rfl
@[simp] theorem setReg_shadowSel : (setReg a v s).shadowSel = s.shadowSel := rfl
@[simp] theorem setReg_dtbHold : (setReg a v s).dtbHold = s.dtbHold := rfl
@[simp] theorem setReg_staged : (setReg a v s).staged = s.staged := rfl
@[simp] theorem setReg_mem : (setReg a v s).mem = s.mem := rfl
@[simp] theorem setReg_marks : (setReg a v s).marks = s.marks := rfl
@[simp] theorem setReg_mram : (setReg a v s).mram = s.mram := rfl
@[simp] theorem setReg_ctx : (setReg a v s).ctx = s.ctx := rfl
@[simp] theorem setReg_sch : (setReg a v s).sch = s.sch := rfl
@[simp] theorem setReg_stk : (setReg a v s).stk = s.stk := rfl
@[simp] theorem setReg_loads : (setReg a v s).loads = s.loads := rfl
@[simp] theorem setReg_opp : (setReg a v s).opp = s.opp := rfl
@[simp] theorem setReg_pins : (setReg a v s).pins = s.pins := rfl
@[simp] theorem setReg_grates : (setReg a v s).grates = s.grates := rfl
@[simp] theorem setReg_fifos : (setReg a v s).fifos = s.fifos := rfl
@[simp] theorem setReg_chans : (setReg a v s).chans = s.chans := rfl
@[simp] theorem setReg_drLast : (setReg a v s).drLast = s.drLast := rfl
@[simp] theorem setReg_rules : (setReg a v s).rules = s.rules := rfl
@[simp] theorem setReg_safe : (setReg a v s).safe = s.safe := rfl
@[simp] theorem setReg_lanes : (setReg a v s).lanes = s.lanes := rfl
@[simp] theorem setReg_flues : (setReg a v s).flues = s.flues := rfl
@[simp] theorem setReg_rops : (setReg a v s).rops = s.rops := rfl
@[simp] theorem setReg_outst : (setReg a v s).outst = s.outst := rfl
@[simp] theorem setReg_nextTag : (setReg a v s).nextTag = s.nextTag := rfl
@[simp] theorem setReg_flueSrc : (setReg a v s).flueSrc = s.flueSrc := rfl
@[simp] theorem setReg_winGot : (setReg a v s).winGot = s.winGot := rfl
@[simp] theorem setReg_mute : (setReg a v s).mute = s.mute := rfl
@[simp] theorem setReg_evLevel : (setReg a v s).evLevel = s.evLevel := rfl
@[simp] theorem setReg_evHost : (setReg a v s).evHost = s.evHost := rfl
@[simp] theorem setReg_evOrphan : (setReg a v s).evOrphan = s.evOrphan := rfl
@[simp] theorem setReg_presented : (setReg a v s).presented = s.presented := rfl
@[simp] theorem setReg_hev : (setReg a v s).hev = s.hev := rfl
@[simp] theorem setReg_i3c : (setReg a v s).i3c = s.i3c := rfl
@[simp] theorem setReg_wqs : (setReg a v s).wqs = s.wqs := rfl
@[simp] theorem setReg_wqLast : (setReg a v s).wqLast = s.wqLast := rfl
@[simp] theorem setReg_cqs : (setReg a v s).cqs = s.cqs := rfl
@[simp] theorem setReg_bulk : (setReg a v s).bulk = s.bulk := rfl
@[simp] theorem setReg_flts : (setReg a v s).flts = s.flts := rfl
@[simp] theorem setReg_fc : (setReg a v s).fc = s.fc := rfl
@[simp] theorem setReg_boot : (setReg a v s).boot = s.boot := rfl
@[simp] theorem setReg_sec : (setReg a v s).sec = s.sec := rfl
@[simp] theorem setReg_tap : (setReg a v s).tap = s.tap := rfl
end

section
variable (n ofs : Nat) (v : Word) (s : State)
@[simp] theorem setRg_pending : (setRg n ofs v s).pending = s.pending := setReg_pending _ _ _
@[simp] theorem setRg_due : (setRg n ofs v s).due = s.due := setReg_due _ _ _
@[simp] theorem setRg_free : (setRg n ofs v s).free = s.free := setReg_free _ _ _
@[simp] theorem setRg_pwr : (setRg n ofs v s).pwr = s.pwr := setReg_pwr _ _ _
@[simp] theorem setRg_ft : (setRg n ofs v s).ft = s.ft := setReg_ft _ _ _
@[simp] theorem setRg_shadowA : (setRg n ofs v s).shadowA = s.shadowA := setReg_shadowA _ _ _
@[simp] theorem setRg_shadowB : (setRg n ofs v s).shadowB = s.shadowB := setReg_shadowB _ _ _
@[simp] theorem setRg_shadowSel : (setRg n ofs v s).shadowSel = s.shadowSel := setReg_shadowSel _ _ _
@[simp] theorem setRg_dtbHold : (setRg n ofs v s).dtbHold = s.dtbHold := setReg_dtbHold _ _ _
@[simp] theorem setRg_staged : (setRg n ofs v s).staged = s.staged := setReg_staged _ _ _
@[simp] theorem setRg_mem : (setRg n ofs v s).mem = s.mem := setReg_mem _ _ _
@[simp] theorem setRg_marks : (setRg n ofs v s).marks = s.marks := setReg_marks _ _ _
@[simp] theorem setRg_mram : (setRg n ofs v s).mram = s.mram := setReg_mram _ _ _
@[simp] theorem setRg_ctx : (setRg n ofs v s).ctx = s.ctx := setReg_ctx _ _ _
@[simp] theorem setRg_sch : (setRg n ofs v s).sch = s.sch := setReg_sch _ _ _
@[simp] theorem setRg_stk : (setRg n ofs v s).stk = s.stk := setReg_stk _ _ _
@[simp] theorem setRg_loads : (setRg n ofs v s).loads = s.loads := setReg_loads _ _ _
@[simp] theorem setRg_opp : (setRg n ofs v s).opp = s.opp := setReg_opp _ _ _
@[simp] theorem setRg_pins : (setRg n ofs v s).pins = s.pins := setReg_pins _ _ _
@[simp] theorem setRg_grates : (setRg n ofs v s).grates = s.grates := setReg_grates _ _ _
@[simp] theorem setRg_fifos : (setRg n ofs v s).fifos = s.fifos := setReg_fifos _ _ _
@[simp] theorem setRg_chans : (setRg n ofs v s).chans = s.chans := setReg_chans _ _ _
@[simp] theorem setRg_drLast : (setRg n ofs v s).drLast = s.drLast := setReg_drLast _ _ _
@[simp] theorem setRg_rules : (setRg n ofs v s).rules = s.rules := setReg_rules _ _ _
@[simp] theorem setRg_safe : (setRg n ofs v s).safe = s.safe := setReg_safe _ _ _
@[simp] theorem setRg_lanes : (setRg n ofs v s).lanes = s.lanes := setReg_lanes _ _ _
@[simp] theorem setRg_flues : (setRg n ofs v s).flues = s.flues := setReg_flues _ _ _
@[simp] theorem setRg_rops : (setRg n ofs v s).rops = s.rops := setReg_rops _ _ _
@[simp] theorem setRg_outst : (setRg n ofs v s).outst = s.outst := setReg_outst _ _ _
@[simp] theorem setRg_nextTag : (setRg n ofs v s).nextTag = s.nextTag := setReg_nextTag _ _ _
@[simp] theorem setRg_flueSrc : (setRg n ofs v s).flueSrc = s.flueSrc := setReg_flueSrc _ _ _
@[simp] theorem setRg_winGot : (setRg n ofs v s).winGot = s.winGot := setReg_winGot _ _ _
@[simp] theorem setRg_evLevel : (setRg n ofs v s).evLevel = s.evLevel := setReg_evLevel _ _ _
@[simp] theorem setRg_evOrphan : (setRg n ofs v s).evOrphan = s.evOrphan := setReg_evOrphan _ _ _
@[simp] theorem setRg_presented : (setRg n ofs v s).presented = s.presented := setReg_presented _ _ _
@[simp] theorem setRg_hev : (setRg n ofs v s).hev = s.hev := setReg_hev _ _ _
@[simp] theorem setRg_i3c : (setRg n ofs v s).i3c = s.i3c := setReg_i3c _ _ _
@[simp] theorem setRg_wqs : (setRg n ofs v s).wqs = s.wqs := setReg_wqs _ _ _
@[simp] theorem setRg_cqs : (setRg n ofs v s).cqs = s.cqs := setReg_cqs _ _ _
@[simp] theorem setRg_bulk : (setRg n ofs v s).bulk = s.bulk := setReg_bulk _ _ _
@[simp] theorem setRg_flts : (setRg n ofs v s).flts = s.flts := setReg_flts _ _ _
@[simp] theorem setRg_fc : (setRg n ofs v s).fc = s.fc := setReg_fc _ _ _
@[simp] theorem setRg_boot : (setRg n ofs v s).boot = s.boot := setReg_boot _ _ _
@[simp] theorem setRg_sec : (setRg n ofs v s).sec = s.sec := setReg_sec _ _ _
@[simp] theorem setRg_tap : (setRg n ofs v s).tap = s.tap := setReg_tap _ _ _
end

section
variable (n ofs i : Nat) (b : Bool) (s : State)
@[simp] theorem setRgBit_pending : (setRgBit n ofs i b s).pending = s.pending := setRg_pending _ _ _ _
@[simp] theorem setRgBit_due : (setRgBit n ofs i b s).due = s.due := setRg_due _ _ _ _
@[simp] theorem setRgBit_free : (setRgBit n ofs i b s).free = s.free := setRg_free _ _ _ _
@[simp] theorem setRgBit_pwr : (setRgBit n ofs i b s).pwr = s.pwr := setRg_pwr _ _ _ _
@[simp] theorem setRgBit_ft : (setRgBit n ofs i b s).ft = s.ft := setRg_ft _ _ _ _
@[simp] theorem setRgBit_shadowA : (setRgBit n ofs i b s).shadowA = s.shadowA := setRg_shadowA _ _ _ _
@[simp] theorem setRgBit_shadowB : (setRgBit n ofs i b s).shadowB = s.shadowB := setRg_shadowB _ _ _ _
@[simp] theorem setRgBit_shadowSel : (setRgBit n ofs i b s).shadowSel = s.shadowSel := setRg_shadowSel _ _ _ _
@[simp] theorem setRgBit_dtbHold : (setRgBit n ofs i b s).dtbHold = s.dtbHold := setRg_dtbHold _ _ _ _
@[simp] theorem setRgBit_staged : (setRgBit n ofs i b s).staged = s.staged := setRg_staged _ _ _ _
@[simp] theorem setRgBit_mem : (setRgBit n ofs i b s).mem = s.mem := setRg_mem _ _ _ _
@[simp] theorem setRgBit_marks : (setRgBit n ofs i b s).marks = s.marks := setRg_marks _ _ _ _
@[simp] theorem setRgBit_mram : (setRgBit n ofs i b s).mram = s.mram := setRg_mram _ _ _ _
@[simp] theorem setRgBit_ctx : (setRgBit n ofs i b s).ctx = s.ctx := setRg_ctx _ _ _ _
@[simp] theorem setRgBit_sch : (setRgBit n ofs i b s).sch = s.sch := setRg_sch _ _ _ _
@[simp] theorem setRgBit_stk : (setRgBit n ofs i b s).stk = s.stk := setRg_stk _ _ _ _
@[simp] theorem setRgBit_loads : (setRgBit n ofs i b s).loads = s.loads := setRg_loads _ _ _ _
@[simp] theorem setRgBit_opp : (setRgBit n ofs i b s).opp = s.opp := setRg_opp _ _ _ _
@[simp] theorem setRgBit_pins : (setRgBit n ofs i b s).pins = s.pins := setRg_pins _ _ _ _
@[simp] theorem setRgBit_grates : (setRgBit n ofs i b s).grates = s.grates := setRg_grates _ _ _ _
@[simp] theorem setRgBit_fifos : (setRgBit n ofs i b s).fifos = s.fifos := setRg_fifos _ _ _ _
@[simp] theorem setRgBit_chans : (setRgBit n ofs i b s).chans = s.chans := setRg_chans _ _ _ _
@[simp] theorem setRgBit_drLast : (setRgBit n ofs i b s).drLast = s.drLast := setRg_drLast _ _ _ _
@[simp] theorem setRgBit_rules : (setRgBit n ofs i b s).rules = s.rules := setRg_rules _ _ _ _
@[simp] theorem setRgBit_safe : (setRgBit n ofs i b s).safe = s.safe := setRg_safe _ _ _ _
@[simp] theorem setRgBit_lanes : (setRgBit n ofs i b s).lanes = s.lanes := setRg_lanes _ _ _ _
@[simp] theorem setRgBit_flues : (setRgBit n ofs i b s).flues = s.flues := setRg_flues _ _ _ _
@[simp] theorem setRgBit_rops : (setRgBit n ofs i b s).rops = s.rops := setRg_rops _ _ _ _
@[simp] theorem setRgBit_outst : (setRgBit n ofs i b s).outst = s.outst := setRg_outst _ _ _ _
@[simp] theorem setRgBit_nextTag : (setRgBit n ofs i b s).nextTag = s.nextTag := setRg_nextTag _ _ _ _
@[simp] theorem setRgBit_flueSrc : (setRgBit n ofs i b s).flueSrc = s.flueSrc := setRg_flueSrc _ _ _ _
@[simp] theorem setRgBit_winGot : (setRgBit n ofs i b s).winGot = s.winGot := setRg_winGot _ _ _ _
@[simp] theorem setRgBit_evLevel : (setRgBit n ofs i b s).evLevel = s.evLevel := setRg_evLevel _ _ _ _
@[simp] theorem setRgBit_evOrphan : (setRgBit n ofs i b s).evOrphan = s.evOrphan := setRg_evOrphan _ _ _ _
@[simp] theorem setRgBit_presented : (setRgBit n ofs i b s).presented = s.presented := setRg_presented _ _ _ _
@[simp] theorem setRgBit_hev : (setRgBit n ofs i b s).hev = s.hev := setRg_hev _ _ _ _
@[simp] theorem setRgBit_i3c : (setRgBit n ofs i b s).i3c = s.i3c := setRg_i3c _ _ _ _
@[simp] theorem setRgBit_wqs : (setRgBit n ofs i b s).wqs = s.wqs := setRg_wqs _ _ _ _
@[simp] theorem setRgBit_cqs : (setRgBit n ofs i b s).cqs = s.cqs := setRg_cqs _ _ _ _
@[simp] theorem setRgBit_bulk : (setRgBit n ofs i b s).bulk = s.bulk := setRg_bulk _ _ _ _
@[simp] theorem setRgBit_flts : (setRgBit n ofs i b s).flts = s.flts := setRg_flts _ _ _ _
@[simp] theorem setRgBit_fc : (setRgBit n ofs i b s).fc = s.fc := setRg_fc _ _ _ _
@[simp] theorem setRgBit_boot : (setRgBit n ofs i b s).boot = s.boot := setRg_boot _ _ _ _
@[simp] theorem setRgBit_sec : (setRgBit n ofs i b s).sec = s.sec := setRg_sec _ _ _ _
@[simp] theorem setRgBit_tap : (setRgBit n ofs i b s).tap = s.tap := setRg_tap _ _ _ _
end

section
variable (n ofs hi lo v : Nat) (s : State)
@[simp] theorem setRgFld_pending : (setRgFld n ofs hi lo v s).pending = s.pending := setRg_pending _ _ _ _
@[simp] theorem setRgFld_due : (setRgFld n ofs hi lo v s).due = s.due := setRg_due _ _ _ _
@[simp] theorem setRgFld_free : (setRgFld n ofs hi lo v s).free = s.free := setRg_free _ _ _ _
@[simp] theorem setRgFld_pwr : (setRgFld n ofs hi lo v s).pwr = s.pwr := setRg_pwr _ _ _ _
@[simp] theorem setRgFld_ft : (setRgFld n ofs hi lo v s).ft = s.ft := setRg_ft _ _ _ _
@[simp] theorem setRgFld_shadowA : (setRgFld n ofs hi lo v s).shadowA = s.shadowA := setRg_shadowA _ _ _ _
@[simp] theorem setRgFld_shadowB : (setRgFld n ofs hi lo v s).shadowB = s.shadowB := setRg_shadowB _ _ _ _
@[simp] theorem setRgFld_shadowSel : (setRgFld n ofs hi lo v s).shadowSel = s.shadowSel := setRg_shadowSel _ _ _ _
@[simp] theorem setRgFld_dtbHold : (setRgFld n ofs hi lo v s).dtbHold = s.dtbHold := setRg_dtbHold _ _ _ _
@[simp] theorem setRgFld_staged : (setRgFld n ofs hi lo v s).staged = s.staged := setRg_staged _ _ _ _
@[simp] theorem setRgFld_mem : (setRgFld n ofs hi lo v s).mem = s.mem := setRg_mem _ _ _ _
@[simp] theorem setRgFld_marks : (setRgFld n ofs hi lo v s).marks = s.marks := setRg_marks _ _ _ _
@[simp] theorem setRgFld_mram : (setRgFld n ofs hi lo v s).mram = s.mram := setRg_mram _ _ _ _
@[simp] theorem setRgFld_ctx : (setRgFld n ofs hi lo v s).ctx = s.ctx := setRg_ctx _ _ _ _
@[simp] theorem setRgFld_sch : (setRgFld n ofs hi lo v s).sch = s.sch := setRg_sch _ _ _ _
@[simp] theorem setRgFld_stk : (setRgFld n ofs hi lo v s).stk = s.stk := setRg_stk _ _ _ _
@[simp] theorem setRgFld_loads : (setRgFld n ofs hi lo v s).loads = s.loads := setRg_loads _ _ _ _
@[simp] theorem setRgFld_opp : (setRgFld n ofs hi lo v s).opp = s.opp := setRg_opp _ _ _ _
@[simp] theorem setRgFld_pins : (setRgFld n ofs hi lo v s).pins = s.pins := setRg_pins _ _ _ _
@[simp] theorem setRgFld_grates : (setRgFld n ofs hi lo v s).grates = s.grates := setRg_grates _ _ _ _
@[simp] theorem setRgFld_fifos : (setRgFld n ofs hi lo v s).fifos = s.fifos := setRg_fifos _ _ _ _
@[simp] theorem setRgFld_chans : (setRgFld n ofs hi lo v s).chans = s.chans := setRg_chans _ _ _ _
@[simp] theorem setRgFld_drLast : (setRgFld n ofs hi lo v s).drLast = s.drLast := setRg_drLast _ _ _ _
@[simp] theorem setRgFld_rules : (setRgFld n ofs hi lo v s).rules = s.rules := setRg_rules _ _ _ _
@[simp] theorem setRgFld_safe : (setRgFld n ofs hi lo v s).safe = s.safe := setRg_safe _ _ _ _
@[simp] theorem setRgFld_lanes : (setRgFld n ofs hi lo v s).lanes = s.lanes := setRg_lanes _ _ _ _
@[simp] theorem setRgFld_flues : (setRgFld n ofs hi lo v s).flues = s.flues := setRg_flues _ _ _ _
@[simp] theorem setRgFld_rops : (setRgFld n ofs hi lo v s).rops = s.rops := setRg_rops _ _ _ _
@[simp] theorem setRgFld_outst : (setRgFld n ofs hi lo v s).outst = s.outst := setRg_outst _ _ _ _
@[simp] theorem setRgFld_nextTag : (setRgFld n ofs hi lo v s).nextTag = s.nextTag := setRg_nextTag _ _ _ _
@[simp] theorem setRgFld_flueSrc : (setRgFld n ofs hi lo v s).flueSrc = s.flueSrc := setRg_flueSrc _ _ _ _
@[simp] theorem setRgFld_winGot : (setRgFld n ofs hi lo v s).winGot = s.winGot := setRg_winGot _ _ _ _
@[simp] theorem setRgFld_evLevel : (setRgFld n ofs hi lo v s).evLevel = s.evLevel := setRg_evLevel _ _ _ _
@[simp] theorem setRgFld_evOrphan : (setRgFld n ofs hi lo v s).evOrphan = s.evOrphan := setRg_evOrphan _ _ _ _
@[simp] theorem setRgFld_presented : (setRgFld n ofs hi lo v s).presented = s.presented := setRg_presented _ _ _ _
@[simp] theorem setRgFld_hev : (setRgFld n ofs hi lo v s).hev = s.hev := setRg_hev _ _ _ _
@[simp] theorem setRgFld_i3c : (setRgFld n ofs hi lo v s).i3c = s.i3c := setRg_i3c _ _ _ _
@[simp] theorem setRgFld_wqs : (setRgFld n ofs hi lo v s).wqs = s.wqs := setRg_wqs _ _ _ _
@[simp] theorem setRgFld_cqs : (setRgFld n ofs hi lo v s).cqs = s.cqs := setRg_cqs _ _ _ _
@[simp] theorem setRgFld_bulk : (setRgFld n ofs hi lo v s).bulk = s.bulk := setRg_bulk _ _ _ _
@[simp] theorem setRgFld_flts : (setRgFld n ofs hi lo v s).flts = s.flts := setRg_flts _ _ _ _
@[simp] theorem setRgFld_fc : (setRgFld n ofs hi lo v s).fc = s.fc := setRg_fc _ _ _ _
@[simp] theorem setRgFld_boot : (setRgFld n ofs hi lo v s).boot = s.boot := setRg_boot _ _ _ _
@[simp] theorem setRgFld_sec : (setRgFld n ofs hi lo v s).sec = s.sec := setRg_sec _ _ _ _
@[simp] theorem setRgFld_tap : (setRgFld n ofs hi lo v s).tap = s.tap := setRg_tap _ _ _ _
end

section
variable (d : Due) (s : State)
@[simp] theorem addDue_pending : (addDue d s).pending = s.pending := rfl
@[simp] theorem addDue_free : (addDue d s).free = s.free := rfl
@[simp] theorem addDue_pwr : (addDue d s).pwr = s.pwr := rfl
@[simp] theorem addDue_ft : (addDue d s).ft = s.ft := rfl
@[simp] theorem addDue_regs : (addDue d s).regs = s.regs := rfl
@[simp] theorem addDue_shadowA : (addDue d s).shadowA = s.shadowA := rfl
@[simp] theorem addDue_shadowB : (addDue d s).shadowB = s.shadowB := rfl
@[simp] theorem addDue_shadowSel : (addDue d s).shadowSel = s.shadowSel := rfl
@[simp] theorem addDue_dtbHold : (addDue d s).dtbHold = s.dtbHold := rfl
@[simp] theorem addDue_staged : (addDue d s).staged = s.staged := rfl
@[simp] theorem addDue_mem : (addDue d s).mem = s.mem := rfl
@[simp] theorem addDue_marks : (addDue d s).marks = s.marks := rfl
@[simp] theorem addDue_mram : (addDue d s).mram = s.mram := rfl
@[simp] theorem addDue_ctx : (addDue d s).ctx = s.ctx := rfl
@[simp] theorem addDue_sch : (addDue d s).sch = s.sch := rfl
@[simp] theorem addDue_stk : (addDue d s).stk = s.stk := rfl
@[simp] theorem addDue_loads : (addDue d s).loads = s.loads := rfl
@[simp] theorem addDue_opp : (addDue d s).opp = s.opp := rfl
@[simp] theorem addDue_pins : (addDue d s).pins = s.pins := rfl
@[simp] theorem addDue_grates : (addDue d s).grates = s.grates := rfl
@[simp] theorem addDue_fifos : (addDue d s).fifos = s.fifos := rfl
@[simp] theorem addDue_chans : (addDue d s).chans = s.chans := rfl
@[simp] theorem addDue_drLast : (addDue d s).drLast = s.drLast := rfl
@[simp] theorem addDue_rules : (addDue d s).rules = s.rules := rfl
@[simp] theorem addDue_safe : (addDue d s).safe = s.safe := rfl
@[simp] theorem addDue_lanes : (addDue d s).lanes = s.lanes := rfl
@[simp] theorem addDue_flues : (addDue d s).flues = s.flues := rfl
@[simp] theorem addDue_rops : (addDue d s).rops = s.rops := rfl
@[simp] theorem addDue_outst : (addDue d s).outst = s.outst := rfl
@[simp] theorem addDue_nextTag : (addDue d s).nextTag = s.nextTag := rfl
@[simp] theorem addDue_flueSrc : (addDue d s).flueSrc = s.flueSrc := rfl
@[simp] theorem addDue_winGot : (addDue d s).winGot = s.winGot := rfl
@[simp] theorem addDue_mute : (addDue d s).mute = s.mute := rfl
@[simp] theorem addDue_evLevel : (addDue d s).evLevel = s.evLevel := rfl
@[simp] theorem addDue_evHost : (addDue d s).evHost = s.evHost := rfl
@[simp] theorem addDue_evOrphan : (addDue d s).evOrphan = s.evOrphan := rfl
@[simp] theorem addDue_presented : (addDue d s).presented = s.presented := rfl
@[simp] theorem addDue_hev : (addDue d s).hev = s.hev := rfl
@[simp] theorem addDue_i3c : (addDue d s).i3c = s.i3c := rfl
@[simp] theorem addDue_wqs : (addDue d s).wqs = s.wqs := rfl
@[simp] theorem addDue_wqLast : (addDue d s).wqLast = s.wqLast := rfl
@[simp] theorem addDue_cqs : (addDue d s).cqs = s.cqs := rfl
@[simp] theorem addDue_bulk : (addDue d s).bulk = s.bulk := rfl
@[simp] theorem addDue_flts : (addDue d s).flts = s.flts := rfl
@[simp] theorem addDue_fc : (addDue d s).fc = s.fc := rfl
@[simp] theorem addDue_boot : (addDue d s).boot = s.boot := rfl
@[simp] theorem addDue_sec : (addDue d s).sec = s.sec := rfl
@[simp] theorem addDue_tap : (addDue d s).tap = s.tap := rfl
end

section
variable (k : Nat) (f : Ctx → Ctx) (s : State)
@[simp] theorem modCtx_pending : (modCtx k f s).pending = s.pending := rfl
@[simp] theorem modCtx_due : (modCtx k f s).due = s.due := rfl
@[simp] theorem modCtx_free : (modCtx k f s).free = s.free := rfl
@[simp] theorem modCtx_pwr : (modCtx k f s).pwr = s.pwr := rfl
@[simp] theorem modCtx_ft : (modCtx k f s).ft = s.ft := rfl
@[simp] theorem modCtx_regs : (modCtx k f s).regs = s.regs := rfl
@[simp] theorem modCtx_shadowA : (modCtx k f s).shadowA = s.shadowA := rfl
@[simp] theorem modCtx_shadowB : (modCtx k f s).shadowB = s.shadowB := rfl
@[simp] theorem modCtx_shadowSel : (modCtx k f s).shadowSel = s.shadowSel := rfl
@[simp] theorem modCtx_dtbHold : (modCtx k f s).dtbHold = s.dtbHold := rfl
@[simp] theorem modCtx_staged : (modCtx k f s).staged = s.staged := rfl
@[simp] theorem modCtx_mem : (modCtx k f s).mem = s.mem := rfl
@[simp] theorem modCtx_marks : (modCtx k f s).marks = s.marks := rfl
@[simp] theorem modCtx_mram : (modCtx k f s).mram = s.mram := rfl
@[simp] theorem modCtx_sch : (modCtx k f s).sch = s.sch := rfl
@[simp] theorem modCtx_stk : (modCtx k f s).stk = s.stk := rfl
@[simp] theorem modCtx_loads : (modCtx k f s).loads = s.loads := rfl
@[simp] theorem modCtx_opp : (modCtx k f s).opp = s.opp := rfl
@[simp] theorem modCtx_pins : (modCtx k f s).pins = s.pins := rfl
@[simp] theorem modCtx_grates : (modCtx k f s).grates = s.grates := rfl
@[simp] theorem modCtx_fifos : (modCtx k f s).fifos = s.fifos := rfl
@[simp] theorem modCtx_chans : (modCtx k f s).chans = s.chans := rfl
@[simp] theorem modCtx_drLast : (modCtx k f s).drLast = s.drLast := rfl
@[simp] theorem modCtx_rules : (modCtx k f s).rules = s.rules := rfl
@[simp] theorem modCtx_safe : (modCtx k f s).safe = s.safe := rfl
@[simp] theorem modCtx_lanes : (modCtx k f s).lanes = s.lanes := rfl
@[simp] theorem modCtx_flues : (modCtx k f s).flues = s.flues := rfl
@[simp] theorem modCtx_rops : (modCtx k f s).rops = s.rops := rfl
@[simp] theorem modCtx_outst : (modCtx k f s).outst = s.outst := rfl
@[simp] theorem modCtx_nextTag : (modCtx k f s).nextTag = s.nextTag := rfl
@[simp] theorem modCtx_flueSrc : (modCtx k f s).flueSrc = s.flueSrc := rfl
@[simp] theorem modCtx_winGot : (modCtx k f s).winGot = s.winGot := rfl
@[simp] theorem modCtx_mute : (modCtx k f s).mute = s.mute := rfl
@[simp] theorem modCtx_evLevel : (modCtx k f s).evLevel = s.evLevel := rfl
@[simp] theorem modCtx_evHost : (modCtx k f s).evHost = s.evHost := rfl
@[simp] theorem modCtx_evOrphan : (modCtx k f s).evOrphan = s.evOrphan := rfl
@[simp] theorem modCtx_presented : (modCtx k f s).presented = s.presented := rfl
@[simp] theorem modCtx_hev : (modCtx k f s).hev = s.hev := rfl
@[simp] theorem modCtx_i3c : (modCtx k f s).i3c = s.i3c := rfl
@[simp] theorem modCtx_wqs : (modCtx k f s).wqs = s.wqs := rfl
@[simp] theorem modCtx_wqLast : (modCtx k f s).wqLast = s.wqLast := rfl
@[simp] theorem modCtx_cqs : (modCtx k f s).cqs = s.cqs := rfl
@[simp] theorem modCtx_bulk : (modCtx k f s).bulk = s.bulk := rfl
@[simp] theorem modCtx_flts : (modCtx k f s).flts = s.flts := rfl
@[simp] theorem modCtx_fc : (modCtx k f s).fc = s.fc := rfl
@[simp] theorem modCtx_boot : (modCtx k f s).boot = s.boot := rfl
@[simp] theorem modCtx_sec : (modCtx k f s).sec = s.sec := rfl
@[simp] theorem modCtx_tap : (modCtx k f s).tap = s.tap := rfl
end

section
variable (k : Nat) (f : Sch → Sch) (s : State)
@[simp] theorem modSch_pending : (modSch k f s).pending = s.pending := rfl
@[simp] theorem modSch_due : (modSch k f s).due = s.due := rfl
@[simp] theorem modSch_free : (modSch k f s).free = s.free := rfl
@[simp] theorem modSch_pwr : (modSch k f s).pwr = s.pwr := rfl
@[simp] theorem modSch_ft : (modSch k f s).ft = s.ft := rfl
@[simp] theorem modSch_regs : (modSch k f s).regs = s.regs := rfl
@[simp] theorem modSch_shadowA : (modSch k f s).shadowA = s.shadowA := rfl
@[simp] theorem modSch_shadowB : (modSch k f s).shadowB = s.shadowB := rfl
@[simp] theorem modSch_shadowSel : (modSch k f s).shadowSel = s.shadowSel := rfl
@[simp] theorem modSch_dtbHold : (modSch k f s).dtbHold = s.dtbHold := rfl
@[simp] theorem modSch_staged : (modSch k f s).staged = s.staged := rfl
@[simp] theorem modSch_mem : (modSch k f s).mem = s.mem := rfl
@[simp] theorem modSch_marks : (modSch k f s).marks = s.marks := rfl
@[simp] theorem modSch_mram : (modSch k f s).mram = s.mram := rfl
@[simp] theorem modSch_ctx : (modSch k f s).ctx = s.ctx := rfl
@[simp] theorem modSch_stk : (modSch k f s).stk = s.stk := rfl
@[simp] theorem modSch_loads : (modSch k f s).loads = s.loads := rfl
@[simp] theorem modSch_opp : (modSch k f s).opp = s.opp := rfl
@[simp] theorem modSch_pins : (modSch k f s).pins = s.pins := rfl
@[simp] theorem modSch_grates : (modSch k f s).grates = s.grates := rfl
@[simp] theorem modSch_fifos : (modSch k f s).fifos = s.fifos := rfl
@[simp] theorem modSch_chans : (modSch k f s).chans = s.chans := rfl
@[simp] theorem modSch_drLast : (modSch k f s).drLast = s.drLast := rfl
@[simp] theorem modSch_rules : (modSch k f s).rules = s.rules := rfl
@[simp] theorem modSch_safe : (modSch k f s).safe = s.safe := rfl
@[simp] theorem modSch_lanes : (modSch k f s).lanes = s.lanes := rfl
@[simp] theorem modSch_flues : (modSch k f s).flues = s.flues := rfl
@[simp] theorem modSch_rops : (modSch k f s).rops = s.rops := rfl
@[simp] theorem modSch_outst : (modSch k f s).outst = s.outst := rfl
@[simp] theorem modSch_nextTag : (modSch k f s).nextTag = s.nextTag := rfl
@[simp] theorem modSch_flueSrc : (modSch k f s).flueSrc = s.flueSrc := rfl
@[simp] theorem modSch_winGot : (modSch k f s).winGot = s.winGot := rfl
@[simp] theorem modSch_mute : (modSch k f s).mute = s.mute := rfl
@[simp] theorem modSch_evLevel : (modSch k f s).evLevel = s.evLevel := rfl
@[simp] theorem modSch_evHost : (modSch k f s).evHost = s.evHost := rfl
@[simp] theorem modSch_evOrphan : (modSch k f s).evOrphan = s.evOrphan := rfl
@[simp] theorem modSch_presented : (modSch k f s).presented = s.presented := rfl
@[simp] theorem modSch_hev : (modSch k f s).hev = s.hev := rfl
@[simp] theorem modSch_i3c : (modSch k f s).i3c = s.i3c := rfl
@[simp] theorem modSch_wqs : (modSch k f s).wqs = s.wqs := rfl
@[simp] theorem modSch_wqLast : (modSch k f s).wqLast = s.wqLast := rfl
@[simp] theorem modSch_cqs : (modSch k f s).cqs = s.cqs := rfl
@[simp] theorem modSch_bulk : (modSch k f s).bulk = s.bulk := rfl
@[simp] theorem modSch_flts : (modSch k f s).flts = s.flts := rfl
@[simp] theorem modSch_fc : (modSch k f s).fc = s.fc := rfl
@[simp] theorem modSch_boot : (modSch k f s).boot = s.boot := rfl
@[simp] theorem modSch_sec : (modSch k f s).sec = s.sec := rfl
@[simp] theorem modSch_tap : (modSch k f s).tap = s.tap := rfl
end

section
variable (k : Nat) (f : Stk → Stk) (s : State)
@[simp] theorem modStk_pending : (modStk k f s).pending = s.pending := rfl
@[simp] theorem modStk_due : (modStk k f s).due = s.due := rfl
@[simp] theorem modStk_free : (modStk k f s).free = s.free := rfl
@[simp] theorem modStk_pwr : (modStk k f s).pwr = s.pwr := rfl
@[simp] theorem modStk_ft : (modStk k f s).ft = s.ft := rfl
@[simp] theorem modStk_regs : (modStk k f s).regs = s.regs := rfl
@[simp] theorem modStk_shadowA : (modStk k f s).shadowA = s.shadowA := rfl
@[simp] theorem modStk_shadowB : (modStk k f s).shadowB = s.shadowB := rfl
@[simp] theorem modStk_shadowSel : (modStk k f s).shadowSel = s.shadowSel := rfl
@[simp] theorem modStk_dtbHold : (modStk k f s).dtbHold = s.dtbHold := rfl
@[simp] theorem modStk_staged : (modStk k f s).staged = s.staged := rfl
@[simp] theorem modStk_mem : (modStk k f s).mem = s.mem := rfl
@[simp] theorem modStk_marks : (modStk k f s).marks = s.marks := rfl
@[simp] theorem modStk_mram : (modStk k f s).mram = s.mram := rfl
@[simp] theorem modStk_ctx : (modStk k f s).ctx = s.ctx := rfl
@[simp] theorem modStk_sch : (modStk k f s).sch = s.sch := rfl
@[simp] theorem modStk_loads : (modStk k f s).loads = s.loads := rfl
@[simp] theorem modStk_opp : (modStk k f s).opp = s.opp := rfl
@[simp] theorem modStk_pins : (modStk k f s).pins = s.pins := rfl
@[simp] theorem modStk_grates : (modStk k f s).grates = s.grates := rfl
@[simp] theorem modStk_fifos : (modStk k f s).fifos = s.fifos := rfl
@[simp] theorem modStk_chans : (modStk k f s).chans = s.chans := rfl
@[simp] theorem modStk_drLast : (modStk k f s).drLast = s.drLast := rfl
@[simp] theorem modStk_rules : (modStk k f s).rules = s.rules := rfl
@[simp] theorem modStk_safe : (modStk k f s).safe = s.safe := rfl
@[simp] theorem modStk_lanes : (modStk k f s).lanes = s.lanes := rfl
@[simp] theorem modStk_flues : (modStk k f s).flues = s.flues := rfl
@[simp] theorem modStk_rops : (modStk k f s).rops = s.rops := rfl
@[simp] theorem modStk_outst : (modStk k f s).outst = s.outst := rfl
@[simp] theorem modStk_nextTag : (modStk k f s).nextTag = s.nextTag := rfl
@[simp] theorem modStk_flueSrc : (modStk k f s).flueSrc = s.flueSrc := rfl
@[simp] theorem modStk_winGot : (modStk k f s).winGot = s.winGot := rfl
@[simp] theorem modStk_mute : (modStk k f s).mute = s.mute := rfl
@[simp] theorem modStk_evLevel : (modStk k f s).evLevel = s.evLevel := rfl
@[simp] theorem modStk_evHost : (modStk k f s).evHost = s.evHost := rfl
@[simp] theorem modStk_evOrphan : (modStk k f s).evOrphan = s.evOrphan := rfl
@[simp] theorem modStk_presented : (modStk k f s).presented = s.presented := rfl
@[simp] theorem modStk_hev : (modStk k f s).hev = s.hev := rfl
@[simp] theorem modStk_i3c : (modStk k f s).i3c = s.i3c := rfl
@[simp] theorem modStk_wqs : (modStk k f s).wqs = s.wqs := rfl
@[simp] theorem modStk_wqLast : (modStk k f s).wqLast = s.wqLast := rfl
@[simp] theorem modStk_cqs : (modStk k f s).cqs = s.cqs := rfl
@[simp] theorem modStk_bulk : (modStk k f s).bulk = s.bulk := rfl
@[simp] theorem modStk_flts : (modStk k f s).flts = s.flts := rfl
@[simp] theorem modStk_fc : (modStk k f s).fc = s.fc := rfl
@[simp] theorem modStk_boot : (modStk k f s).boot = s.boot := rfl
@[simp] theorem modStk_sec : (modStk k f s).sec = s.sec := rfl
@[simp] theorem modStk_tap : (modStk k f s).tap = s.tap := rfl
end

section
variable (k : Nat) (f : Pin → Pin) (s : State)
@[simp] theorem modPin_pending : (modPin k f s).pending = s.pending := rfl
@[simp] theorem modPin_due : (modPin k f s).due = s.due := rfl
@[simp] theorem modPin_free : (modPin k f s).free = s.free := rfl
@[simp] theorem modPin_pwr : (modPin k f s).pwr = s.pwr := rfl
@[simp] theorem modPin_ft : (modPin k f s).ft = s.ft := rfl
@[simp] theorem modPin_regs : (modPin k f s).regs = s.regs := rfl
@[simp] theorem modPin_shadowA : (modPin k f s).shadowA = s.shadowA := rfl
@[simp] theorem modPin_shadowB : (modPin k f s).shadowB = s.shadowB := rfl
@[simp] theorem modPin_shadowSel : (modPin k f s).shadowSel = s.shadowSel := rfl
@[simp] theorem modPin_dtbHold : (modPin k f s).dtbHold = s.dtbHold := rfl
@[simp] theorem modPin_staged : (modPin k f s).staged = s.staged := rfl
@[simp] theorem modPin_mem : (modPin k f s).mem = s.mem := rfl
@[simp] theorem modPin_marks : (modPin k f s).marks = s.marks := rfl
@[simp] theorem modPin_mram : (modPin k f s).mram = s.mram := rfl
@[simp] theorem modPin_ctx : (modPin k f s).ctx = s.ctx := rfl
@[simp] theorem modPin_sch : (modPin k f s).sch = s.sch := rfl
@[simp] theorem modPin_stk : (modPin k f s).stk = s.stk := rfl
@[simp] theorem modPin_loads : (modPin k f s).loads = s.loads := rfl
@[simp] theorem modPin_opp : (modPin k f s).opp = s.opp := rfl
@[simp] theorem modPin_grates : (modPin k f s).grates = s.grates := rfl
@[simp] theorem modPin_fifos : (modPin k f s).fifos = s.fifos := rfl
@[simp] theorem modPin_chans : (modPin k f s).chans = s.chans := rfl
@[simp] theorem modPin_drLast : (modPin k f s).drLast = s.drLast := rfl
@[simp] theorem modPin_rules : (modPin k f s).rules = s.rules := rfl
@[simp] theorem modPin_safe : (modPin k f s).safe = s.safe := rfl
@[simp] theorem modPin_lanes : (modPin k f s).lanes = s.lanes := rfl
@[simp] theorem modPin_flues : (modPin k f s).flues = s.flues := rfl
@[simp] theorem modPin_rops : (modPin k f s).rops = s.rops := rfl
@[simp] theorem modPin_outst : (modPin k f s).outst = s.outst := rfl
@[simp] theorem modPin_nextTag : (modPin k f s).nextTag = s.nextTag := rfl
@[simp] theorem modPin_flueSrc : (modPin k f s).flueSrc = s.flueSrc := rfl
@[simp] theorem modPin_winGot : (modPin k f s).winGot = s.winGot := rfl
@[simp] theorem modPin_mute : (modPin k f s).mute = s.mute := rfl
@[simp] theorem modPin_evLevel : (modPin k f s).evLevel = s.evLevel := rfl
@[simp] theorem modPin_evHost : (modPin k f s).evHost = s.evHost := rfl
@[simp] theorem modPin_evOrphan : (modPin k f s).evOrphan = s.evOrphan := rfl
@[simp] theorem modPin_presented : (modPin k f s).presented = s.presented := rfl
@[simp] theorem modPin_hev : (modPin k f s).hev = s.hev := rfl
@[simp] theorem modPin_i3c : (modPin k f s).i3c = s.i3c := rfl
@[simp] theorem modPin_wqs : (modPin k f s).wqs = s.wqs := rfl
@[simp] theorem modPin_wqLast : (modPin k f s).wqLast = s.wqLast := rfl
@[simp] theorem modPin_cqs : (modPin k f s).cqs = s.cqs := rfl
@[simp] theorem modPin_bulk : (modPin k f s).bulk = s.bulk := rfl
@[simp] theorem modPin_flts : (modPin k f s).flts = s.flts := rfl
@[simp] theorem modPin_fc : (modPin k f s).fc = s.fc := rfl
@[simp] theorem modPin_boot : (modPin k f s).boot = s.boot := rfl
@[simp] theorem modPin_sec : (modPin k f s).sec = s.sec := rfl
@[simp] theorem modPin_tap : (modPin k f s).tap = s.tap := rfl
end

section
variable (k : Nat) (f : Grate → Grate) (s : State)
@[simp] theorem modGrate_pending : (modGrate k f s).pending = s.pending := rfl
@[simp] theorem modGrate_due : (modGrate k f s).due = s.due := rfl
@[simp] theorem modGrate_free : (modGrate k f s).free = s.free := rfl
@[simp] theorem modGrate_pwr : (modGrate k f s).pwr = s.pwr := rfl
@[simp] theorem modGrate_ft : (modGrate k f s).ft = s.ft := rfl
@[simp] theorem modGrate_regs : (modGrate k f s).regs = s.regs := rfl
@[simp] theorem modGrate_shadowA : (modGrate k f s).shadowA = s.shadowA := rfl
@[simp] theorem modGrate_shadowB : (modGrate k f s).shadowB = s.shadowB := rfl
@[simp] theorem modGrate_shadowSel : (modGrate k f s).shadowSel = s.shadowSel := rfl
@[simp] theorem modGrate_dtbHold : (modGrate k f s).dtbHold = s.dtbHold := rfl
@[simp] theorem modGrate_staged : (modGrate k f s).staged = s.staged := rfl
@[simp] theorem modGrate_mem : (modGrate k f s).mem = s.mem := rfl
@[simp] theorem modGrate_marks : (modGrate k f s).marks = s.marks := rfl
@[simp] theorem modGrate_mram : (modGrate k f s).mram = s.mram := rfl
@[simp] theorem modGrate_ctx : (modGrate k f s).ctx = s.ctx := rfl
@[simp] theorem modGrate_sch : (modGrate k f s).sch = s.sch := rfl
@[simp] theorem modGrate_stk : (modGrate k f s).stk = s.stk := rfl
@[simp] theorem modGrate_loads : (modGrate k f s).loads = s.loads := rfl
@[simp] theorem modGrate_opp : (modGrate k f s).opp = s.opp := rfl
@[simp] theorem modGrate_pins : (modGrate k f s).pins = s.pins := rfl
@[simp] theorem modGrate_fifos : (modGrate k f s).fifos = s.fifos := rfl
@[simp] theorem modGrate_chans : (modGrate k f s).chans = s.chans := rfl
@[simp] theorem modGrate_drLast : (modGrate k f s).drLast = s.drLast := rfl
@[simp] theorem modGrate_rules : (modGrate k f s).rules = s.rules := rfl
@[simp] theorem modGrate_safe : (modGrate k f s).safe = s.safe := rfl
@[simp] theorem modGrate_lanes : (modGrate k f s).lanes = s.lanes := rfl
@[simp] theorem modGrate_flues : (modGrate k f s).flues = s.flues := rfl
@[simp] theorem modGrate_rops : (modGrate k f s).rops = s.rops := rfl
@[simp] theorem modGrate_outst : (modGrate k f s).outst = s.outst := rfl
@[simp] theorem modGrate_nextTag : (modGrate k f s).nextTag = s.nextTag := rfl
@[simp] theorem modGrate_flueSrc : (modGrate k f s).flueSrc = s.flueSrc := rfl
@[simp] theorem modGrate_winGot : (modGrate k f s).winGot = s.winGot := rfl
@[simp] theorem modGrate_mute : (modGrate k f s).mute = s.mute := rfl
@[simp] theorem modGrate_evLevel : (modGrate k f s).evLevel = s.evLevel := rfl
@[simp] theorem modGrate_evHost : (modGrate k f s).evHost = s.evHost := rfl
@[simp] theorem modGrate_evOrphan : (modGrate k f s).evOrphan = s.evOrphan := rfl
@[simp] theorem modGrate_presented : (modGrate k f s).presented = s.presented := rfl
@[simp] theorem modGrate_hev : (modGrate k f s).hev = s.hev := rfl
@[simp] theorem modGrate_i3c : (modGrate k f s).i3c = s.i3c := rfl
@[simp] theorem modGrate_wqs : (modGrate k f s).wqs = s.wqs := rfl
@[simp] theorem modGrate_wqLast : (modGrate k f s).wqLast = s.wqLast := rfl
@[simp] theorem modGrate_cqs : (modGrate k f s).cqs = s.cqs := rfl
@[simp] theorem modGrate_bulk : (modGrate k f s).bulk = s.bulk := rfl
@[simp] theorem modGrate_flts : (modGrate k f s).flts = s.flts := rfl
@[simp] theorem modGrate_fc : (modGrate k f s).fc = s.fc := rfl
@[simp] theorem modGrate_boot : (modGrate k f s).boot = s.boot := rfl
@[simp] theorem modGrate_sec : (modGrate k f s).sec = s.sec := rfl
@[simp] theorem modGrate_tap : (modGrate k f s).tap = s.tap := rfl
end

section
variable (k : Nat) (f : Fifo → Fifo) (s : State)
@[simp] theorem modFifo_pending : (modFifo k f s).pending = s.pending := rfl
@[simp] theorem modFifo_due : (modFifo k f s).due = s.due := rfl
@[simp] theorem modFifo_free : (modFifo k f s).free = s.free := rfl
@[simp] theorem modFifo_pwr : (modFifo k f s).pwr = s.pwr := rfl
@[simp] theorem modFifo_ft : (modFifo k f s).ft = s.ft := rfl
@[simp] theorem modFifo_regs : (modFifo k f s).regs = s.regs := rfl
@[simp] theorem modFifo_shadowA : (modFifo k f s).shadowA = s.shadowA := rfl
@[simp] theorem modFifo_shadowB : (modFifo k f s).shadowB = s.shadowB := rfl
@[simp] theorem modFifo_shadowSel : (modFifo k f s).shadowSel = s.shadowSel := rfl
@[simp] theorem modFifo_dtbHold : (modFifo k f s).dtbHold = s.dtbHold := rfl
@[simp] theorem modFifo_staged : (modFifo k f s).staged = s.staged := rfl
@[simp] theorem modFifo_mem : (modFifo k f s).mem = s.mem := rfl
@[simp] theorem modFifo_marks : (modFifo k f s).marks = s.marks := rfl
@[simp] theorem modFifo_mram : (modFifo k f s).mram = s.mram := rfl
@[simp] theorem modFifo_ctx : (modFifo k f s).ctx = s.ctx := rfl
@[simp] theorem modFifo_sch : (modFifo k f s).sch = s.sch := rfl
@[simp] theorem modFifo_stk : (modFifo k f s).stk = s.stk := rfl
@[simp] theorem modFifo_loads : (modFifo k f s).loads = s.loads := rfl
@[simp] theorem modFifo_opp : (modFifo k f s).opp = s.opp := rfl
@[simp] theorem modFifo_pins : (modFifo k f s).pins = s.pins := rfl
@[simp] theorem modFifo_grates : (modFifo k f s).grates = s.grates := rfl
@[simp] theorem modFifo_chans : (modFifo k f s).chans = s.chans := rfl
@[simp] theorem modFifo_drLast : (modFifo k f s).drLast = s.drLast := rfl
@[simp] theorem modFifo_rules : (modFifo k f s).rules = s.rules := rfl
@[simp] theorem modFifo_safe : (modFifo k f s).safe = s.safe := rfl
@[simp] theorem modFifo_lanes : (modFifo k f s).lanes = s.lanes := rfl
@[simp] theorem modFifo_flues : (modFifo k f s).flues = s.flues := rfl
@[simp] theorem modFifo_rops : (modFifo k f s).rops = s.rops := rfl
@[simp] theorem modFifo_outst : (modFifo k f s).outst = s.outst := rfl
@[simp] theorem modFifo_nextTag : (modFifo k f s).nextTag = s.nextTag := rfl
@[simp] theorem modFifo_flueSrc : (modFifo k f s).flueSrc = s.flueSrc := rfl
@[simp] theorem modFifo_winGot : (modFifo k f s).winGot = s.winGot := rfl
@[simp] theorem modFifo_mute : (modFifo k f s).mute = s.mute := rfl
@[simp] theorem modFifo_evLevel : (modFifo k f s).evLevel = s.evLevel := rfl
@[simp] theorem modFifo_evHost : (modFifo k f s).evHost = s.evHost := rfl
@[simp] theorem modFifo_evOrphan : (modFifo k f s).evOrphan = s.evOrphan := rfl
@[simp] theorem modFifo_presented : (modFifo k f s).presented = s.presented := rfl
@[simp] theorem modFifo_hev : (modFifo k f s).hev = s.hev := rfl
@[simp] theorem modFifo_i3c : (modFifo k f s).i3c = s.i3c := rfl
@[simp] theorem modFifo_wqs : (modFifo k f s).wqs = s.wqs := rfl
@[simp] theorem modFifo_wqLast : (modFifo k f s).wqLast = s.wqLast := rfl
@[simp] theorem modFifo_cqs : (modFifo k f s).cqs = s.cqs := rfl
@[simp] theorem modFifo_bulk : (modFifo k f s).bulk = s.bulk := rfl
@[simp] theorem modFifo_flts : (modFifo k f s).flts = s.flts := rfl
@[simp] theorem modFifo_fc : (modFifo k f s).fc = s.fc := rfl
@[simp] theorem modFifo_boot : (modFifo k f s).boot = s.boot := rfl
@[simp] theorem modFifo_sec : (modFifo k f s).sec = s.sec := rfl
@[simp] theorem modFifo_tap : (modFifo k f s).tap = s.tap := rfl
end

section
variable (k : Nat) (f : Chan → Chan) (s : State)
@[simp] theorem modChan_pending : (modChan k f s).pending = s.pending := rfl
@[simp] theorem modChan_due : (modChan k f s).due = s.due := rfl
@[simp] theorem modChan_free : (modChan k f s).free = s.free := rfl
@[simp] theorem modChan_pwr : (modChan k f s).pwr = s.pwr := rfl
@[simp] theorem modChan_ft : (modChan k f s).ft = s.ft := rfl
@[simp] theorem modChan_regs : (modChan k f s).regs = s.regs := rfl
@[simp] theorem modChan_shadowA : (modChan k f s).shadowA = s.shadowA := rfl
@[simp] theorem modChan_shadowB : (modChan k f s).shadowB = s.shadowB := rfl
@[simp] theorem modChan_shadowSel : (modChan k f s).shadowSel = s.shadowSel := rfl
@[simp] theorem modChan_dtbHold : (modChan k f s).dtbHold = s.dtbHold := rfl
@[simp] theorem modChan_staged : (modChan k f s).staged = s.staged := rfl
@[simp] theorem modChan_mem : (modChan k f s).mem = s.mem := rfl
@[simp] theorem modChan_marks : (modChan k f s).marks = s.marks := rfl
@[simp] theorem modChan_mram : (modChan k f s).mram = s.mram := rfl
@[simp] theorem modChan_ctx : (modChan k f s).ctx = s.ctx := rfl
@[simp] theorem modChan_sch : (modChan k f s).sch = s.sch := rfl
@[simp] theorem modChan_stk : (modChan k f s).stk = s.stk := rfl
@[simp] theorem modChan_loads : (modChan k f s).loads = s.loads := rfl
@[simp] theorem modChan_opp : (modChan k f s).opp = s.opp := rfl
@[simp] theorem modChan_pins : (modChan k f s).pins = s.pins := rfl
@[simp] theorem modChan_grates : (modChan k f s).grates = s.grates := rfl
@[simp] theorem modChan_fifos : (modChan k f s).fifos = s.fifos := rfl
@[simp] theorem modChan_drLast : (modChan k f s).drLast = s.drLast := rfl
@[simp] theorem modChan_rules : (modChan k f s).rules = s.rules := rfl
@[simp] theorem modChan_safe : (modChan k f s).safe = s.safe := rfl
@[simp] theorem modChan_lanes : (modChan k f s).lanes = s.lanes := rfl
@[simp] theorem modChan_flues : (modChan k f s).flues = s.flues := rfl
@[simp] theorem modChan_rops : (modChan k f s).rops = s.rops := rfl
@[simp] theorem modChan_outst : (modChan k f s).outst = s.outst := rfl
@[simp] theorem modChan_nextTag : (modChan k f s).nextTag = s.nextTag := rfl
@[simp] theorem modChan_flueSrc : (modChan k f s).flueSrc = s.flueSrc := rfl
@[simp] theorem modChan_winGot : (modChan k f s).winGot = s.winGot := rfl
@[simp] theorem modChan_mute : (modChan k f s).mute = s.mute := rfl
@[simp] theorem modChan_evLevel : (modChan k f s).evLevel = s.evLevel := rfl
@[simp] theorem modChan_evHost : (modChan k f s).evHost = s.evHost := rfl
@[simp] theorem modChan_evOrphan : (modChan k f s).evOrphan = s.evOrphan := rfl
@[simp] theorem modChan_presented : (modChan k f s).presented = s.presented := rfl
@[simp] theorem modChan_hev : (modChan k f s).hev = s.hev := rfl
@[simp] theorem modChan_i3c : (modChan k f s).i3c = s.i3c := rfl
@[simp] theorem modChan_wqs : (modChan k f s).wqs = s.wqs := rfl
@[simp] theorem modChan_wqLast : (modChan k f s).wqLast = s.wqLast := rfl
@[simp] theorem modChan_cqs : (modChan k f s).cqs = s.cqs := rfl
@[simp] theorem modChan_bulk : (modChan k f s).bulk = s.bulk := rfl
@[simp] theorem modChan_flts : (modChan k f s).flts = s.flts := rfl
@[simp] theorem modChan_fc : (modChan k f s).fc = s.fc := rfl
@[simp] theorem modChan_boot : (modChan k f s).boot = s.boot := rfl
@[simp] theorem modChan_sec : (modChan k f s).sec = s.sec := rfl
@[simp] theorem modChan_tap : (modChan k f s).tap = s.tap := rfl
end

section
variable (k : Nat) (f : Rule → Rule) (s : State)
@[simp] theorem modRule_pending : (modRule k f s).pending = s.pending := rfl
@[simp] theorem modRule_due : (modRule k f s).due = s.due := rfl
@[simp] theorem modRule_free : (modRule k f s).free = s.free := rfl
@[simp] theorem modRule_pwr : (modRule k f s).pwr = s.pwr := rfl
@[simp] theorem modRule_ft : (modRule k f s).ft = s.ft := rfl
@[simp] theorem modRule_regs : (modRule k f s).regs = s.regs := rfl
@[simp] theorem modRule_shadowA : (modRule k f s).shadowA = s.shadowA := rfl
@[simp] theorem modRule_shadowB : (modRule k f s).shadowB = s.shadowB := rfl
@[simp] theorem modRule_shadowSel : (modRule k f s).shadowSel = s.shadowSel := rfl
@[simp] theorem modRule_dtbHold : (modRule k f s).dtbHold = s.dtbHold := rfl
@[simp] theorem modRule_staged : (modRule k f s).staged = s.staged := rfl
@[simp] theorem modRule_mem : (modRule k f s).mem = s.mem := rfl
@[simp] theorem modRule_marks : (modRule k f s).marks = s.marks := rfl
@[simp] theorem modRule_mram : (modRule k f s).mram = s.mram := rfl
@[simp] theorem modRule_ctx : (modRule k f s).ctx = s.ctx := rfl
@[simp] theorem modRule_sch : (modRule k f s).sch = s.sch := rfl
@[simp] theorem modRule_stk : (modRule k f s).stk = s.stk := rfl
@[simp] theorem modRule_loads : (modRule k f s).loads = s.loads := rfl
@[simp] theorem modRule_opp : (modRule k f s).opp = s.opp := rfl
@[simp] theorem modRule_pins : (modRule k f s).pins = s.pins := rfl
@[simp] theorem modRule_grates : (modRule k f s).grates = s.grates := rfl
@[simp] theorem modRule_fifos : (modRule k f s).fifos = s.fifos := rfl
@[simp] theorem modRule_chans : (modRule k f s).chans = s.chans := rfl
@[simp] theorem modRule_drLast : (modRule k f s).drLast = s.drLast := rfl
@[simp] theorem modRule_safe : (modRule k f s).safe = s.safe := rfl
@[simp] theorem modRule_lanes : (modRule k f s).lanes = s.lanes := rfl
@[simp] theorem modRule_flues : (modRule k f s).flues = s.flues := rfl
@[simp] theorem modRule_rops : (modRule k f s).rops = s.rops := rfl
@[simp] theorem modRule_outst : (modRule k f s).outst = s.outst := rfl
@[simp] theorem modRule_nextTag : (modRule k f s).nextTag = s.nextTag := rfl
@[simp] theorem modRule_flueSrc : (modRule k f s).flueSrc = s.flueSrc := rfl
@[simp] theorem modRule_winGot : (modRule k f s).winGot = s.winGot := rfl
@[simp] theorem modRule_mute : (modRule k f s).mute = s.mute := rfl
@[simp] theorem modRule_evLevel : (modRule k f s).evLevel = s.evLevel := rfl
@[simp] theorem modRule_evHost : (modRule k f s).evHost = s.evHost := rfl
@[simp] theorem modRule_evOrphan : (modRule k f s).evOrphan = s.evOrphan := rfl
@[simp] theorem modRule_presented : (modRule k f s).presented = s.presented := rfl
@[simp] theorem modRule_hev : (modRule k f s).hev = s.hev := rfl
@[simp] theorem modRule_i3c : (modRule k f s).i3c = s.i3c := rfl
@[simp] theorem modRule_wqs : (modRule k f s).wqs = s.wqs := rfl
@[simp] theorem modRule_wqLast : (modRule k f s).wqLast = s.wqLast := rfl
@[simp] theorem modRule_cqs : (modRule k f s).cqs = s.cqs := rfl
@[simp] theorem modRule_bulk : (modRule k f s).bulk = s.bulk := rfl
@[simp] theorem modRule_flts : (modRule k f s).flts = s.flts := rfl
@[simp] theorem modRule_fc : (modRule k f s).fc = s.fc := rfl
@[simp] theorem modRule_boot : (modRule k f s).boot = s.boot := rfl
@[simp] theorem modRule_sec : (modRule k f s).sec = s.sec := rfl
@[simp] theorem modRule_tap : (modRule k f s).tap = s.tap := rfl
end

section
variable (k : Nat) (f : Lane → Lane) (s : State)
@[simp] theorem modLane_pending : (modLane k f s).pending = s.pending := rfl
@[simp] theorem modLane_due : (modLane k f s).due = s.due := rfl
@[simp] theorem modLane_free : (modLane k f s).free = s.free := rfl
@[simp] theorem modLane_pwr : (modLane k f s).pwr = s.pwr := rfl
@[simp] theorem modLane_ft : (modLane k f s).ft = s.ft := rfl
@[simp] theorem modLane_regs : (modLane k f s).regs = s.regs := rfl
@[simp] theorem modLane_shadowA : (modLane k f s).shadowA = s.shadowA := rfl
@[simp] theorem modLane_shadowB : (modLane k f s).shadowB = s.shadowB := rfl
@[simp] theorem modLane_shadowSel : (modLane k f s).shadowSel = s.shadowSel := rfl
@[simp] theorem modLane_dtbHold : (modLane k f s).dtbHold = s.dtbHold := rfl
@[simp] theorem modLane_staged : (modLane k f s).staged = s.staged := rfl
@[simp] theorem modLane_mem : (modLane k f s).mem = s.mem := rfl
@[simp] theorem modLane_marks : (modLane k f s).marks = s.marks := rfl
@[simp] theorem modLane_mram : (modLane k f s).mram = s.mram := rfl
@[simp] theorem modLane_ctx : (modLane k f s).ctx = s.ctx := rfl
@[simp] theorem modLane_sch : (modLane k f s).sch = s.sch := rfl
@[simp] theorem modLane_stk : (modLane k f s).stk = s.stk := rfl
@[simp] theorem modLane_loads : (modLane k f s).loads = s.loads := rfl
@[simp] theorem modLane_opp : (modLane k f s).opp = s.opp := rfl
@[simp] theorem modLane_pins : (modLane k f s).pins = s.pins := rfl
@[simp] theorem modLane_grates : (modLane k f s).grates = s.grates := rfl
@[simp] theorem modLane_fifos : (modLane k f s).fifos = s.fifos := rfl
@[simp] theorem modLane_chans : (modLane k f s).chans = s.chans := rfl
@[simp] theorem modLane_drLast : (modLane k f s).drLast = s.drLast := rfl
@[simp] theorem modLane_rules : (modLane k f s).rules = s.rules := rfl
@[simp] theorem modLane_safe : (modLane k f s).safe = s.safe := rfl
@[simp] theorem modLane_flues : (modLane k f s).flues = s.flues := rfl
@[simp] theorem modLane_rops : (modLane k f s).rops = s.rops := rfl
@[simp] theorem modLane_outst : (modLane k f s).outst = s.outst := rfl
@[simp] theorem modLane_nextTag : (modLane k f s).nextTag = s.nextTag := rfl
@[simp] theorem modLane_flueSrc : (modLane k f s).flueSrc = s.flueSrc := rfl
@[simp] theorem modLane_winGot : (modLane k f s).winGot = s.winGot := rfl
@[simp] theorem modLane_mute : (modLane k f s).mute = s.mute := rfl
@[simp] theorem modLane_evLevel : (modLane k f s).evLevel = s.evLevel := rfl
@[simp] theorem modLane_evHost : (modLane k f s).evHost = s.evHost := rfl
@[simp] theorem modLane_evOrphan : (modLane k f s).evOrphan = s.evOrphan := rfl
@[simp] theorem modLane_presented : (modLane k f s).presented = s.presented := rfl
@[simp] theorem modLane_hev : (modLane k f s).hev = s.hev := rfl
@[simp] theorem modLane_i3c : (modLane k f s).i3c = s.i3c := rfl
@[simp] theorem modLane_wqs : (modLane k f s).wqs = s.wqs := rfl
@[simp] theorem modLane_wqLast : (modLane k f s).wqLast = s.wqLast := rfl
@[simp] theorem modLane_cqs : (modLane k f s).cqs = s.cqs := rfl
@[simp] theorem modLane_bulk : (modLane k f s).bulk = s.bulk := rfl
@[simp] theorem modLane_flts : (modLane k f s).flts = s.flts := rfl
@[simp] theorem modLane_fc : (modLane k f s).fc = s.fc := rfl
@[simp] theorem modLane_boot : (modLane k f s).boot = s.boot := rfl
@[simp] theorem modLane_sec : (modLane k f s).sec = s.sec := rfl
@[simp] theorem modLane_tap : (modLane k f s).tap = s.tap := rfl
end

section
variable (k : Nat) (f : Flue → Flue) (s : State)
@[simp] theorem modFlue_pending : (modFlue k f s).pending = s.pending := rfl
@[simp] theorem modFlue_due : (modFlue k f s).due = s.due := rfl
@[simp] theorem modFlue_free : (modFlue k f s).free = s.free := rfl
@[simp] theorem modFlue_pwr : (modFlue k f s).pwr = s.pwr := rfl
@[simp] theorem modFlue_ft : (modFlue k f s).ft = s.ft := rfl
@[simp] theorem modFlue_regs : (modFlue k f s).regs = s.regs := rfl
@[simp] theorem modFlue_shadowA : (modFlue k f s).shadowA = s.shadowA := rfl
@[simp] theorem modFlue_shadowB : (modFlue k f s).shadowB = s.shadowB := rfl
@[simp] theorem modFlue_shadowSel : (modFlue k f s).shadowSel = s.shadowSel := rfl
@[simp] theorem modFlue_dtbHold : (modFlue k f s).dtbHold = s.dtbHold := rfl
@[simp] theorem modFlue_staged : (modFlue k f s).staged = s.staged := rfl
@[simp] theorem modFlue_mem : (modFlue k f s).mem = s.mem := rfl
@[simp] theorem modFlue_marks : (modFlue k f s).marks = s.marks := rfl
@[simp] theorem modFlue_mram : (modFlue k f s).mram = s.mram := rfl
@[simp] theorem modFlue_ctx : (modFlue k f s).ctx = s.ctx := rfl
@[simp] theorem modFlue_sch : (modFlue k f s).sch = s.sch := rfl
@[simp] theorem modFlue_stk : (modFlue k f s).stk = s.stk := rfl
@[simp] theorem modFlue_loads : (modFlue k f s).loads = s.loads := rfl
@[simp] theorem modFlue_opp : (modFlue k f s).opp = s.opp := rfl
@[simp] theorem modFlue_pins : (modFlue k f s).pins = s.pins := rfl
@[simp] theorem modFlue_grates : (modFlue k f s).grates = s.grates := rfl
@[simp] theorem modFlue_fifos : (modFlue k f s).fifos = s.fifos := rfl
@[simp] theorem modFlue_chans : (modFlue k f s).chans = s.chans := rfl
@[simp] theorem modFlue_drLast : (modFlue k f s).drLast = s.drLast := rfl
@[simp] theorem modFlue_rules : (modFlue k f s).rules = s.rules := rfl
@[simp] theorem modFlue_safe : (modFlue k f s).safe = s.safe := rfl
@[simp] theorem modFlue_lanes : (modFlue k f s).lanes = s.lanes := rfl
@[simp] theorem modFlue_rops : (modFlue k f s).rops = s.rops := rfl
@[simp] theorem modFlue_outst : (modFlue k f s).outst = s.outst := rfl
@[simp] theorem modFlue_nextTag : (modFlue k f s).nextTag = s.nextTag := rfl
@[simp] theorem modFlue_flueSrc : (modFlue k f s).flueSrc = s.flueSrc := rfl
@[simp] theorem modFlue_winGot : (modFlue k f s).winGot = s.winGot := rfl
@[simp] theorem modFlue_mute : (modFlue k f s).mute = s.mute := rfl
@[simp] theorem modFlue_evLevel : (modFlue k f s).evLevel = s.evLevel := rfl
@[simp] theorem modFlue_evHost : (modFlue k f s).evHost = s.evHost := rfl
@[simp] theorem modFlue_evOrphan : (modFlue k f s).evOrphan = s.evOrphan := rfl
@[simp] theorem modFlue_presented : (modFlue k f s).presented = s.presented := rfl
@[simp] theorem modFlue_hev : (modFlue k f s).hev = s.hev := rfl
@[simp] theorem modFlue_i3c : (modFlue k f s).i3c = s.i3c := rfl
@[simp] theorem modFlue_wqs : (modFlue k f s).wqs = s.wqs := rfl
@[simp] theorem modFlue_wqLast : (modFlue k f s).wqLast = s.wqLast := rfl
@[simp] theorem modFlue_cqs : (modFlue k f s).cqs = s.cqs := rfl
@[simp] theorem modFlue_bulk : (modFlue k f s).bulk = s.bulk := rfl
@[simp] theorem modFlue_flts : (modFlue k f s).flts = s.flts := rfl
@[simp] theorem modFlue_fc : (modFlue k f s).fc = s.fc := rfl
@[simp] theorem modFlue_boot : (modFlue k f s).boot = s.boot := rfl
@[simp] theorem modFlue_sec : (modFlue k f s).sec = s.sec := rfl
@[simp] theorem modFlue_tap : (modFlue k f s).tap = s.tap := rfl
end

section
variable (k : Nat) (f : Wq → Wq) (s : State)
@[simp] theorem modWq_pending : (modWq k f s).pending = s.pending := rfl
@[simp] theorem modWq_wqLast : (modWq k f s).wqLast = s.wqLast := rfl
@[simp] theorem modWq_due : (modWq k f s).due = s.due := rfl
@[simp] theorem modWq_free : (modWq k f s).free = s.free := rfl
@[simp] theorem modWq_pwr : (modWq k f s).pwr = s.pwr := rfl
@[simp] theorem modWq_ft : (modWq k f s).ft = s.ft := rfl
@[simp] theorem modWq_regs : (modWq k f s).regs = s.regs := rfl
@[simp] theorem modWq_shadowA : (modWq k f s).shadowA = s.shadowA := rfl
@[simp] theorem modWq_shadowB : (modWq k f s).shadowB = s.shadowB := rfl
@[simp] theorem modWq_shadowSel : (modWq k f s).shadowSel = s.shadowSel := rfl
@[simp] theorem modWq_dtbHold : (modWq k f s).dtbHold = s.dtbHold := rfl
@[simp] theorem modWq_staged : (modWq k f s).staged = s.staged := rfl
@[simp] theorem modWq_mem : (modWq k f s).mem = s.mem := rfl
@[simp] theorem modWq_marks : (modWq k f s).marks = s.marks := rfl
@[simp] theorem modWq_mram : (modWq k f s).mram = s.mram := rfl
@[simp] theorem modWq_ctx : (modWq k f s).ctx = s.ctx := rfl
@[simp] theorem modWq_sch : (modWq k f s).sch = s.sch := rfl
@[simp] theorem modWq_stk : (modWq k f s).stk = s.stk := rfl
@[simp] theorem modWq_loads : (modWq k f s).loads = s.loads := rfl
@[simp] theorem modWq_opp : (modWq k f s).opp = s.opp := rfl
@[simp] theorem modWq_pins : (modWq k f s).pins = s.pins := rfl
@[simp] theorem modWq_grates : (modWq k f s).grates = s.grates := rfl
@[simp] theorem modWq_fifos : (modWq k f s).fifos = s.fifos := rfl
@[simp] theorem modWq_chans : (modWq k f s).chans = s.chans := rfl
@[simp] theorem modWq_drLast : (modWq k f s).drLast = s.drLast := rfl
@[simp] theorem modWq_rules : (modWq k f s).rules = s.rules := rfl
@[simp] theorem modWq_safe : (modWq k f s).safe = s.safe := rfl
@[simp] theorem modWq_lanes : (modWq k f s).lanes = s.lanes := rfl
@[simp] theorem modWq_flues : (modWq k f s).flues = s.flues := rfl
@[simp] theorem modWq_rops : (modWq k f s).rops = s.rops := rfl
@[simp] theorem modWq_outst : (modWq k f s).outst = s.outst := rfl
@[simp] theorem modWq_nextTag : (modWq k f s).nextTag = s.nextTag := rfl
@[simp] theorem modWq_flueSrc : (modWq k f s).flueSrc = s.flueSrc := rfl
@[simp] theorem modWq_winGot : (modWq k f s).winGot = s.winGot := rfl
@[simp] theorem modWq_mute : (modWq k f s).mute = s.mute := rfl
@[simp] theorem modWq_evLevel : (modWq k f s).evLevel = s.evLevel := rfl
@[simp] theorem modWq_evHost : (modWq k f s).evHost = s.evHost := rfl
@[simp] theorem modWq_evOrphan : (modWq k f s).evOrphan = s.evOrphan := rfl
@[simp] theorem modWq_presented : (modWq k f s).presented = s.presented := rfl
@[simp] theorem modWq_hev : (modWq k f s).hev = s.hev := rfl
@[simp] theorem modWq_i3c : (modWq k f s).i3c = s.i3c := rfl
@[simp] theorem modWq_cqs : (modWq k f s).cqs = s.cqs := rfl
@[simp] theorem modWq_bulk : (modWq k f s).bulk = s.bulk := rfl
@[simp] theorem modWq_flts : (modWq k f s).flts = s.flts := rfl
@[simp] theorem modWq_fc : (modWq k f s).fc = s.fc := rfl
@[simp] theorem modWq_boot : (modWq k f s).boot = s.boot := rfl
@[simp] theorem modWq_sec : (modWq k f s).sec = s.sec := rfl
@[simp] theorem modWq_tap : (modWq k f s).tap = s.tap := rfl
end

section
variable (k : Nat) (f : Cq → Cq) (s : State)
@[simp] theorem modCq_pending : (modCq k f s).pending = s.pending := rfl
@[simp] theorem modCq_due : (modCq k f s).due = s.due := rfl
@[simp] theorem modCq_free : (modCq k f s).free = s.free := rfl
@[simp] theorem modCq_pwr : (modCq k f s).pwr = s.pwr := rfl
@[simp] theorem modCq_ft : (modCq k f s).ft = s.ft := rfl
@[simp] theorem modCq_regs : (modCq k f s).regs = s.regs := rfl
@[simp] theorem modCq_shadowA : (modCq k f s).shadowA = s.shadowA := rfl
@[simp] theorem modCq_shadowB : (modCq k f s).shadowB = s.shadowB := rfl
@[simp] theorem modCq_shadowSel : (modCq k f s).shadowSel = s.shadowSel := rfl
@[simp] theorem modCq_dtbHold : (modCq k f s).dtbHold = s.dtbHold := rfl
@[simp] theorem modCq_staged : (modCq k f s).staged = s.staged := rfl
@[simp] theorem modCq_mem : (modCq k f s).mem = s.mem := rfl
@[simp] theorem modCq_marks : (modCq k f s).marks = s.marks := rfl
@[simp] theorem modCq_mram : (modCq k f s).mram = s.mram := rfl
@[simp] theorem modCq_ctx : (modCq k f s).ctx = s.ctx := rfl
@[simp] theorem modCq_sch : (modCq k f s).sch = s.sch := rfl
@[simp] theorem modCq_stk : (modCq k f s).stk = s.stk := rfl
@[simp] theorem modCq_loads : (modCq k f s).loads = s.loads := rfl
@[simp] theorem modCq_opp : (modCq k f s).opp = s.opp := rfl
@[simp] theorem modCq_pins : (modCq k f s).pins = s.pins := rfl
@[simp] theorem modCq_grates : (modCq k f s).grates = s.grates := rfl
@[simp] theorem modCq_fifos : (modCq k f s).fifos = s.fifos := rfl
@[simp] theorem modCq_chans : (modCq k f s).chans = s.chans := rfl
@[simp] theorem modCq_drLast : (modCq k f s).drLast = s.drLast := rfl
@[simp] theorem modCq_rules : (modCq k f s).rules = s.rules := rfl
@[simp] theorem modCq_safe : (modCq k f s).safe = s.safe := rfl
@[simp] theorem modCq_lanes : (modCq k f s).lanes = s.lanes := rfl
@[simp] theorem modCq_flues : (modCq k f s).flues = s.flues := rfl
@[simp] theorem modCq_rops : (modCq k f s).rops = s.rops := rfl
@[simp] theorem modCq_outst : (modCq k f s).outst = s.outst := rfl
@[simp] theorem modCq_nextTag : (modCq k f s).nextTag = s.nextTag := rfl
@[simp] theorem modCq_flueSrc : (modCq k f s).flueSrc = s.flueSrc := rfl
@[simp] theorem modCq_winGot : (modCq k f s).winGot = s.winGot := rfl
@[simp] theorem modCq_mute : (modCq k f s).mute = s.mute := rfl
@[simp] theorem modCq_evLevel : (modCq k f s).evLevel = s.evLevel := rfl
@[simp] theorem modCq_evHost : (modCq k f s).evHost = s.evHost := rfl
@[simp] theorem modCq_evOrphan : (modCq k f s).evOrphan = s.evOrphan := rfl
@[simp] theorem modCq_presented : (modCq k f s).presented = s.presented := rfl
@[simp] theorem modCq_hev : (modCq k f s).hev = s.hev := rfl
@[simp] theorem modCq_i3c : (modCq k f s).i3c = s.i3c := rfl
@[simp] theorem modCq_wqs : (modCq k f s).wqs = s.wqs := rfl
@[simp] theorem modCq_wqLast : (modCq k f s).wqLast = s.wqLast := rfl
@[simp] theorem modCq_bulk : (modCq k f s).bulk = s.bulk := rfl
@[simp] theorem modCq_flts : (modCq k f s).flts = s.flts := rfl
@[simp] theorem modCq_fc : (modCq k f s).fc = s.fc := rfl
@[simp] theorem modCq_boot : (modCq k f s).boot = s.boot := rfl
@[simp] theorem modCq_sec : (modCq k f s).sec = s.sec := rfl
@[simp] theorem modCq_tap : (modCq k f s).tap = s.tap := rfl
end

section
variable (k : Nat) (f : FltSt → FltSt) (s : State)
@[simp] theorem modFlt_pending : (modFlt k f s).pending = s.pending := rfl
@[simp] theorem modFlt_due : (modFlt k f s).due = s.due := rfl
@[simp] theorem modFlt_free : (modFlt k f s).free = s.free := rfl
@[simp] theorem modFlt_pwr : (modFlt k f s).pwr = s.pwr := rfl
@[simp] theorem modFlt_ft : (modFlt k f s).ft = s.ft := rfl
@[simp] theorem modFlt_regs : (modFlt k f s).regs = s.regs := rfl
@[simp] theorem modFlt_shadowA : (modFlt k f s).shadowA = s.shadowA := rfl
@[simp] theorem modFlt_shadowB : (modFlt k f s).shadowB = s.shadowB := rfl
@[simp] theorem modFlt_shadowSel : (modFlt k f s).shadowSel = s.shadowSel := rfl
@[simp] theorem modFlt_dtbHold : (modFlt k f s).dtbHold = s.dtbHold := rfl
@[simp] theorem modFlt_staged : (modFlt k f s).staged = s.staged := rfl
@[simp] theorem modFlt_mem : (modFlt k f s).mem = s.mem := rfl
@[simp] theorem modFlt_marks : (modFlt k f s).marks = s.marks := rfl
@[simp] theorem modFlt_mram : (modFlt k f s).mram = s.mram := rfl
@[simp] theorem modFlt_ctx : (modFlt k f s).ctx = s.ctx := rfl
@[simp] theorem modFlt_sch : (modFlt k f s).sch = s.sch := rfl
@[simp] theorem modFlt_stk : (modFlt k f s).stk = s.stk := rfl
@[simp] theorem modFlt_loads : (modFlt k f s).loads = s.loads := rfl
@[simp] theorem modFlt_opp : (modFlt k f s).opp = s.opp := rfl
@[simp] theorem modFlt_pins : (modFlt k f s).pins = s.pins := rfl
@[simp] theorem modFlt_grates : (modFlt k f s).grates = s.grates := rfl
@[simp] theorem modFlt_fifos : (modFlt k f s).fifos = s.fifos := rfl
@[simp] theorem modFlt_chans : (modFlt k f s).chans = s.chans := rfl
@[simp] theorem modFlt_drLast : (modFlt k f s).drLast = s.drLast := rfl
@[simp] theorem modFlt_rules : (modFlt k f s).rules = s.rules := rfl
@[simp] theorem modFlt_safe : (modFlt k f s).safe = s.safe := rfl
@[simp] theorem modFlt_lanes : (modFlt k f s).lanes = s.lanes := rfl
@[simp] theorem modFlt_flues : (modFlt k f s).flues = s.flues := rfl
@[simp] theorem modFlt_rops : (modFlt k f s).rops = s.rops := rfl
@[simp] theorem modFlt_outst : (modFlt k f s).outst = s.outst := rfl
@[simp] theorem modFlt_nextTag : (modFlt k f s).nextTag = s.nextTag := rfl
@[simp] theorem modFlt_flueSrc : (modFlt k f s).flueSrc = s.flueSrc := rfl
@[simp] theorem modFlt_winGot : (modFlt k f s).winGot = s.winGot := rfl
@[simp] theorem modFlt_mute : (modFlt k f s).mute = s.mute := rfl
@[simp] theorem modFlt_evLevel : (modFlt k f s).evLevel = s.evLevel := rfl
@[simp] theorem modFlt_evHost : (modFlt k f s).evHost = s.evHost := rfl
@[simp] theorem modFlt_evOrphan : (modFlt k f s).evOrphan = s.evOrphan := rfl
@[simp] theorem modFlt_presented : (modFlt k f s).presented = s.presented := rfl
@[simp] theorem modFlt_hev : (modFlt k f s).hev = s.hev := rfl
@[simp] theorem modFlt_i3c : (modFlt k f s).i3c = s.i3c := rfl
@[simp] theorem modFlt_wqs : (modFlt k f s).wqs = s.wqs := rfl
@[simp] theorem modFlt_wqLast : (modFlt k f s).wqLast = s.wqLast := rfl
@[simp] theorem modFlt_cqs : (modFlt k f s).cqs = s.cqs := rfl
@[simp] theorem modFlt_bulk : (modFlt k f s).bulk = s.bulk := rfl
@[simp] theorem modFlt_fc : (modFlt k f s).fc = s.fc := rfl
@[simp] theorem modFlt_boot : (modFlt k f s).boot = s.boot := rfl
@[simp] theorem modFlt_sec : (modFlt k f s).sec = s.sec := rfl
@[simp] theorem modFlt_tap : (modFlt k f s).tap = s.tap := rfl
end

section
variable (k : Nat) (w : Word) (s : State)
@[simp] theorem memPut_pending : (memPut k w s).pending = s.pending := rfl
@[simp] theorem memPut_due : (memPut k w s).due = s.due := rfl
@[simp] theorem memPut_free : (memPut k w s).free = s.free := rfl
@[simp] theorem memPut_pwr : (memPut k w s).pwr = s.pwr := rfl
@[simp] theorem memPut_ft : (memPut k w s).ft = s.ft := rfl
@[simp] theorem memPut_regs : (memPut k w s).regs = s.regs := rfl
@[simp] theorem memPut_shadowA : (memPut k w s).shadowA = s.shadowA := rfl
@[simp] theorem memPut_shadowB : (memPut k w s).shadowB = s.shadowB := rfl
@[simp] theorem memPut_shadowSel : (memPut k w s).shadowSel = s.shadowSel := rfl
@[simp] theorem memPut_dtbHold : (memPut k w s).dtbHold = s.dtbHold := rfl
@[simp] theorem memPut_staged : (memPut k w s).staged = s.staged := rfl
@[simp] theorem memPut_mram : (memPut k w s).mram = s.mram := rfl
@[simp] theorem memPut_ctx : (memPut k w s).ctx = s.ctx := rfl
@[simp] theorem memPut_sch : (memPut k w s).sch = s.sch := rfl
@[simp] theorem memPut_stk : (memPut k w s).stk = s.stk := rfl
@[simp] theorem memPut_loads : (memPut k w s).loads = s.loads := rfl
@[simp] theorem memPut_opp : (memPut k w s).opp = s.opp := rfl
@[simp] theorem memPut_pins : (memPut k w s).pins = s.pins := rfl
@[simp] theorem memPut_grates : (memPut k w s).grates = s.grates := rfl
@[simp] theorem memPut_fifos : (memPut k w s).fifos = s.fifos := rfl
@[simp] theorem memPut_chans : (memPut k w s).chans = s.chans := rfl
@[simp] theorem memPut_drLast : (memPut k w s).drLast = s.drLast := rfl
@[simp] theorem memPut_rules : (memPut k w s).rules = s.rules := rfl
@[simp] theorem memPut_safe : (memPut k w s).safe = s.safe := rfl
@[simp] theorem memPut_lanes : (memPut k w s).lanes = s.lanes := rfl
@[simp] theorem memPut_flues : (memPut k w s).flues = s.flues := rfl
@[simp] theorem memPut_rops : (memPut k w s).rops = s.rops := rfl
@[simp] theorem memPut_outst : (memPut k w s).outst = s.outst := rfl
@[simp] theorem memPut_nextTag : (memPut k w s).nextTag = s.nextTag := rfl
@[simp] theorem memPut_flueSrc : (memPut k w s).flueSrc = s.flueSrc := rfl
@[simp] theorem memPut_winGot : (memPut k w s).winGot = s.winGot := rfl
@[simp] theorem memPut_mute : (memPut k w s).mute = s.mute := rfl
@[simp] theorem memPut_evLevel : (memPut k w s).evLevel = s.evLevel := rfl
@[simp] theorem memPut_evHost : (memPut k w s).evHost = s.evHost := rfl
@[simp] theorem memPut_evOrphan : (memPut k w s).evOrphan = s.evOrphan := rfl
@[simp] theorem memPut_presented : (memPut k w s).presented = s.presented := rfl
@[simp] theorem memPut_hev : (memPut k w s).hev = s.hev := rfl
@[simp] theorem memPut_i3c : (memPut k w s).i3c = s.i3c := rfl
@[simp] theorem memPut_wqs : (memPut k w s).wqs = s.wqs := rfl
@[simp] theorem memPut_wqLast : (memPut k w s).wqLast = s.wqLast := rfl
@[simp] theorem memPut_cqs : (memPut k w s).cqs = s.cqs := rfl
@[simp] theorem memPut_bulk : (memPut k w s).bulk = s.bulk := rfl
@[simp] theorem memPut_flts : (memPut k w s).flts = s.flts := rfl
@[simp] theorem memPut_fc : (memPut k w s).fc = s.fc := rfl
@[simp] theorem memPut_boot : (memPut k w s).boot = s.boot := rfl
@[simp] theorem memPut_sec : (memPut k w s).sec = s.sec := rfl
@[simp] theorem memPut_tap : (memPut k w s).tap = s.tap := rfl
end

end Sys2Proof.Machine
end

