-- ==== Sys2Proof/Laws/Ops.lean ====
section
/-! SUPPORT. What the named operations answer: registers and units read after a write, counters, and the plain
combinators. -/
set_option Elab.async false
namespace Sys2Proof.Machine
open Sys2Proof

/-! ### Registers -/

@[simp] theorem reg_setReg_same (a : Nat) (v : Word) (s : State) : reg a (setReg a v s) = v := by
  simp [reg, setReg]

theorem reg_setReg_ne {a b : Nat} (v : Word) (s : State) (h : b ≠ a) : reg b (setReg a v s) = reg b s :=
  mget_mset_ne _ _ v s.regs h

@[simp] theorem rg_setRg_same (n ofs : Nat) (v : Word) (s : State) : rg n ofs (setRg n ofs v s) = v :=
  reg_setReg_same _ _ _

theorem rg_setRg_ne {n m o p : Nat} (v : Word) (s : State) (h : ra m p ≠ ra n o) : rg m p (setRg n o v s) = rg m p s :=
  reg_setReg_ne v s h

/-- Two registers of one block are apart when their offsets are. -/
theorem ra_ne_ofs (n : Nat) {o p : Nat} (h : p ≠ o) : ra n p ≠ ra n o := by
  unfold ra; omega

/-- Registers of two blocks are apart where the offsets stay within a block. -/
theorem ra_inj {n m o p : Nat} (ho : o < 65536) (hp : p < 65536) (h : ra m p = ra n o) : m = n ∧ p = o := by
  unfold ra at h; omega

theorem rg_setRg_ofs {n o p : Nat} (v : Word) (s : State) (h : p ≠ o) : rg n p (setRg n o v s) = rg n p s := by
  apply rg_setRg_ne; exact ra_ne_ofs n h

@[simp] theorem rg_setRgBit_same (n ofs i : Nat) (b : Bool) (s : State) :
    rg n ofs (setRgBit n ofs i b s) = setBit (rg n ofs s) i b := rg_setRg_same _ _ _ _

@[simp] theorem rg_setRgFld_same (n ofs hi lo v : Nat) (s : State) :
    rg n ofs (setRgFld n ofs hi lo v s) = setFld (rg n ofs s) hi lo v := rg_setRg_same _ _ _ _

/-! ### Counters (R43) -/

theorem valOf_pair (v w : Word) : valOf [v, w] = v.toNat * 65536 + w.toNat := by
  rw [valOf, List.foldl_cons, List.foldl_cons, List.foldl_nil, Nat.zero_mul, Nat.zero_add]

theorem rgs_two (n ofs : Nat) (s : State) :
    rgs n ofs 2 s = (rg n ofs s).toNat * 65536 + (rg n (ofs + 1) s).toNat := by
  simp only [rgs, span, List.map, valOf_pair]

/-- A counter counts modulo 2^32. -/
theorem rgs_countBy (n ofs m : Nat) (s : State) : rgs n ofs 2 (countBy n ofs m s) = (rgs n ofs 2 s + m) % 2 ^ 32 := by
  have h1 : ofs ≠ ofs + 1 := by omega
  rw [rgs_two (s := countBy n ofs m s)]
  unfold countBy
  generalize rgs n ofs 2 s + m = v
  simp only [wordsOf, setRgs, rg_setRg_same, rg_setRg_ofs _ _ h1, wd, BitVec.toNat_ofNat, Nat.shiftRight_eq_div_pow]
  omega

/-- A counter counts by one. -/
theorem rgs_count (n ofs : Nat) (s : State) : rgs n ofs 2 (count n ofs s) = (rgs n ofs 2 s + 1) % 2 ^ 32 :=
  rgs_countBy n ofs 1 s

/-- A counter of other registers leaves a register as it is. -/
theorem rg_countBy_ne {b p n ofs : Nat} (m : Nat) (s : State) (h0 : ra b p ≠ ra n ofs) (h1 : ra b p ≠ ra n (ofs + 1)) :
    rg b p (countBy n ofs m s) = rg b p s := by
  simp only [countBy, wordsOf, setRgs]
  rw [rg_setRg_ne _ _ h1, rg_setRg_ne _ _ h0]

/-! ### The units' records -/

@[simp] theorem ctx_modCtx_same (k : Nat) (f : Ctx → Ctx) (s : State) : ctx k (modCtx k f s) = f (ctx k s) :=
  mget_mmod_same _ _ _ _
theorem ctx_modCtx_ne {k j : Nat} (f : Ctx → Ctx) (s : State) (h : j ≠ k) : ctx j (modCtx k f s) = ctx j s :=
  mget_mmod_ne _ f s.ctx h
@[simp] theorem ctx_setReg (k a : Nat) (v : Word) (s : State) : ctx k (setReg a v s) = ctx k s := rfl
@[simp] theorem ctx_setRg (k n o : Nat) (v : Word) (s : State) : ctx k (setRg n o v s) = ctx k s := ctx_setReg _ _ _ _
@[simp] theorem reg_modCtx (a k : Nat) (f : Ctx → Ctx) (s : State) : reg a (modCtx k f s) = reg a s := rfl
@[simp] theorem rg_modCtx (n o k : Nat) (f : Ctx → Ctx) (s : State) : rg n o (modCtx k f s) = rg n o s := rfl
@[simp] theorem sch_modSch_same (k : Nat) (f : Sch → Sch) (s : State) : sch k (modSch k f s) = f (sch k s) :=
  mget_mmod_same _ _ _ _
theorem sch_modSch_ne {k j : Nat} (f : Sch → Sch) (s : State) (h : j ≠ k) : sch j (modSch k f s) = sch j s :=
  mget_mmod_ne _ f s.sch h
@[simp] theorem sch_setReg (k a : Nat) (v : Word) (s : State) : sch k (setReg a v s) = sch k s := rfl
@[simp] theorem sch_setRg (k n o : Nat) (v : Word) (s : State) : sch k (setRg n o v s) = sch k s := sch_setReg _ _ _ _
@[simp] theorem reg_modSch (a k : Nat) (f : Sch → Sch) (s : State) : reg a (modSch k f s) = reg a s := rfl
@[simp] theorem rg_modSch (n o k : Nat) (f : Sch → Sch) (s : State) : rg n o (modSch k f s) = rg n o s := rfl
@[simp] theorem stk_modStk_same (k : Nat) (f : Stk → Stk) (s : State) : stk k (modStk k f s) = f (stk k s) :=
  mget_mmod_same _ _ _ _
theorem stk_modStk_ne {k j : Nat} (f : Stk → Stk) (s : State) (h : j ≠ k) : stk j (modStk k f s) = stk j s :=
  mget_mmod_ne _ f s.stk h
@[simp] theorem stk_setReg (k a : Nat) (v : Word) (s : State) : stk k (setReg a v s) = stk k s := rfl
@[simp] theorem stk_setRg (k n o : Nat) (v : Word) (s : State) : stk k (setRg n o v s) = stk k s := stk_setReg _ _ _ _
@[simp] theorem reg_modStk (a k : Nat) (f : Stk → Stk) (s : State) : reg a (modStk k f s) = reg a s := rfl
@[simp] theorem rg_modStk (n o k : Nat) (f : Stk → Stk) (s : State) : rg n o (modStk k f s) = rg n o s := rfl
@[simp] theorem pin_modPin_same (k : Nat) (f : Pin → Pin) (s : State) : pin k (modPin k f s) = f (pin k s) :=
  mget_mmod_same _ _ _ _
theorem pin_modPin_ne {k j : Nat} (f : Pin → Pin) (s : State) (h : j ≠ k) : pin j (modPin k f s) = pin j s :=
  mget_mmod_ne _ f s.pins h
@[simp] theorem pin_setReg (k a : Nat) (v : Word) (s : State) : pin k (setReg a v s) = pin k s := rfl
@[simp] theorem pin_setRg (k n o : Nat) (v : Word) (s : State) : pin k (setRg n o v s) = pin k s := pin_setReg _ _ _ _
@[simp] theorem reg_modPin (a k : Nat) (f : Pin → Pin) (s : State) : reg a (modPin k f s) = reg a s := rfl
@[simp] theorem rg_modPin (n o k : Nat) (f : Pin → Pin) (s : State) : rg n o (modPin k f s) = rg n o s := rfl
@[simp] theorem grate_modGrate_same (k : Nat) (f : Grate → Grate) (s : State) : grate k (modGrate k f s) = f (grate k s) :=
  mget_mmod_same _ _ _ _
theorem grate_modGrate_ne {k j : Nat} (f : Grate → Grate) (s : State) (h : j ≠ k) : grate j (modGrate k f s) = grate j s :=
  mget_mmod_ne _ f s.grates h
@[simp] theorem grate_setReg (k a : Nat) (v : Word) (s : State) : grate k (setReg a v s) = grate k s := rfl
@[simp] theorem grate_setRg (k n o : Nat) (v : Word) (s : State) : grate k (setRg n o v s) = grate k s := grate_setReg _ _ _ _
@[simp] theorem reg_modGrate (a k : Nat) (f : Grate → Grate) (s : State) : reg a (modGrate k f s) = reg a s := rfl
@[simp] theorem rg_modGrate (n o k : Nat) (f : Grate → Grate) (s : State) : rg n o (modGrate k f s) = rg n o s := rfl
@[simp] theorem fifo_modFifo_same (k : Nat) (f : Fifo → Fifo) (s : State) : fifo k (modFifo k f s) = f (fifo k s) :=
  mget_mmod_same _ _ _ _
theorem fifo_modFifo_ne {k j : Nat} (f : Fifo → Fifo) (s : State) (h : j ≠ k) : fifo j (modFifo k f s) = fifo j s :=
  mget_mmod_ne _ f s.fifos h
@[simp] theorem fifo_setReg (k a : Nat) (v : Word) (s : State) : fifo k (setReg a v s) = fifo k s := rfl
@[simp] theorem fifo_setRg (k n o : Nat) (v : Word) (s : State) : fifo k (setRg n o v s) = fifo k s := fifo_setReg _ _ _ _
@[simp] theorem reg_modFifo (a k : Nat) (f : Fifo → Fifo) (s : State) : reg a (modFifo k f s) = reg a s := rfl
@[simp] theorem rg_modFifo (n o k : Nat) (f : Fifo → Fifo) (s : State) : rg n o (modFifo k f s) = rg n o s := rfl
@[simp] theorem chan_modChan_same (k : Nat) (f : Chan → Chan) (s : State) : chan k (modChan k f s) = f (chan k s) :=
  mget_mmod_same _ _ _ _
theorem chan_modChan_ne {k j : Nat} (f : Chan → Chan) (s : State) (h : j ≠ k) : chan j (modChan k f s) = chan j s :=
  mget_mmod_ne _ f s.chans h
@[simp] theorem chan_setReg (k a : Nat) (v : Word) (s : State) : chan k (setReg a v s) = chan k s := rfl
@[simp] theorem chan_setRg (k n o : Nat) (v : Word) (s : State) : chan k (setRg n o v s) = chan k s := chan_setReg _ _ _ _
@[simp] theorem reg_modChan (a k : Nat) (f : Chan → Chan) (s : State) : reg a (modChan k f s) = reg a s := rfl
@[simp] theorem rg_modChan (n o k : Nat) (f : Chan → Chan) (s : State) : rg n o (modChan k f s) = rg n o s := rfl
@[simp] theorem rule_modRule_same (k : Nat) (f : Rule → Rule) (s : State) : rule k (modRule k f s) = f (rule k s) :=
  mget_mmod_same _ _ _ _
theorem rule_modRule_ne {k j : Nat} (f : Rule → Rule) (s : State) (h : j ≠ k) : rule j (modRule k f s) = rule j s :=
  mget_mmod_ne _ f s.rules h
@[simp] theorem rule_setReg (k a : Nat) (v : Word) (s : State) : rule k (setReg a v s) = rule k s := rfl
@[simp] theorem rule_setRg (k n o : Nat) (v : Word) (s : State) : rule k (setRg n o v s) = rule k s := rule_setReg _ _ _ _
@[simp] theorem reg_modRule (a k : Nat) (f : Rule → Rule) (s : State) : reg a (modRule k f s) = reg a s := rfl
@[simp] theorem rg_modRule (n o k : Nat) (f : Rule → Rule) (s : State) : rg n o (modRule k f s) = rg n o s := rfl
@[simp] theorem lane_modLane_same (k : Nat) (f : Lane → Lane) (s : State) : lane k (modLane k f s) = f (lane k s) :=
  mget_mmod_same _ _ _ _
theorem lane_modLane_ne {k j : Nat} (f : Lane → Lane) (s : State) (h : j ≠ k) : lane j (modLane k f s) = lane j s :=
  mget_mmod_ne _ f s.lanes h
@[simp] theorem lane_setReg (k a : Nat) (v : Word) (s : State) : lane k (setReg a v s) = lane k s := rfl
@[simp] theorem lane_setRg (k n o : Nat) (v : Word) (s : State) : lane k (setRg n o v s) = lane k s := lane_setReg _ _ _ _
@[simp] theorem reg_modLane (a k : Nat) (f : Lane → Lane) (s : State) : reg a (modLane k f s) = reg a s := rfl
@[simp] theorem rg_modLane (n o k : Nat) (f : Lane → Lane) (s : State) : rg n o (modLane k f s) = rg n o s := rfl
@[simp] theorem flue_modFlue_same (k : Nat) (f : Flue → Flue) (s : State) : flue k (modFlue k f s) = f (flue k s) :=
  mget_mmod_same _ _ _ _
theorem flue_modFlue_ne {k j : Nat} (f : Flue → Flue) (s : State) (h : j ≠ k) : flue j (modFlue k f s) = flue j s :=
  mget_mmod_ne _ f s.flues h
@[simp] theorem flue_setReg (k a : Nat) (v : Word) (s : State) : flue k (setReg a v s) = flue k s := rfl
@[simp] theorem flue_setRg (k n o : Nat) (v : Word) (s : State) : flue k (setRg n o v s) = flue k s := flue_setReg _ _ _ _
@[simp] theorem reg_modFlue (a k : Nat) (f : Flue → Flue) (s : State) : reg a (modFlue k f s) = reg a s := rfl
@[simp] theorem rg_modFlue (n o k : Nat) (f : Flue → Flue) (s : State) : rg n o (modFlue k f s) = rg n o s := rfl
@[simp] theorem wq_modWq_same (k : Nat) (f : Wq → Wq) (s : State) : wq k (modWq k f s) = f (wq k s) :=
  mget_mmod_same _ _ _ _
theorem wq_modWq_ne {k j : Nat} (f : Wq → Wq) (s : State) (h : j ≠ k) : wq j (modWq k f s) = wq j s :=
  mget_mmod_ne _ f s.wqs h
@[simp] theorem wq_setReg (k a : Nat) (v : Word) (s : State) : wq k (setReg a v s) = wq k s := rfl
@[simp] theorem wq_setRg (k n o : Nat) (v : Word) (s : State) : wq k (setRg n o v s) = wq k s := wq_setReg _ _ _ _
@[simp] theorem reg_modWq (a k : Nat) (f : Wq → Wq) (s : State) : reg a (modWq k f s) = reg a s := rfl
@[simp] theorem rg_modWq (n o k : Nat) (f : Wq → Wq) (s : State) : rg n o (modWq k f s) = rg n o s := rfl
@[simp] theorem cq_modCq_same (k : Nat) (f : Cq → Cq) (s : State) : cq k (modCq k f s) = f (cq k s) :=
  mget_mmod_same _ _ _ _
theorem cq_modCq_ne {k j : Nat} (f : Cq → Cq) (s : State) (h : j ≠ k) : cq j (modCq k f s) = cq j s :=
  mget_mmod_ne _ f s.cqs h
@[simp] theorem cq_setReg (k a : Nat) (v : Word) (s : State) : cq k (setReg a v s) = cq k s := rfl
@[simp] theorem cq_setRg (k n o : Nat) (v : Word) (s : State) : cq k (setRg n o v s) = cq k s := cq_setReg _ _ _ _
@[simp] theorem reg_modCq (a k : Nat) (f : Cq → Cq) (s : State) : reg a (modCq k f s) = reg a s := rfl
@[simp] theorem rg_modCq (n o k : Nat) (f : Cq → Cq) (s : State) : rg n o (modCq k f s) = rg n o s := rfl
@[simp] theorem flt_modFlt_same (k : Nat) (f : FltSt → FltSt) (s : State) : flt k (modFlt k f s) = f (flt k s) :=
  mget_mmod_same _ _ _ _
theorem flt_modFlt_ne {k j : Nat} (f : FltSt → FltSt) (s : State) (h : j ≠ k) : flt j (modFlt k f s) = flt j s :=
  mget_mmod_ne _ f s.flts h
@[simp] theorem flt_setReg (k a : Nat) (v : Word) (s : State) : flt k (setReg a v s) = flt k s := rfl
@[simp] theorem flt_setRg (k n o : Nat) (v : Word) (s : State) : flt k (setRg n o v s) = flt k s := flt_setReg _ _ _ _
@[simp] theorem reg_modFlt (a k : Nat) (f : FltSt → FltSt) (s : State) : reg a (modFlt k f s) = reg a s := rfl
@[simp] theorem rg_modFlt (n o k : Nat) (f : FltSt → FltSt) (s : State) : rg n o (modFlt k f s) = rg n o s := rfl

/-! ### Combinators -/

@[simp] theorem forAll_nil (f : Nat → State → State) (s : State) : forAll [] f s = s := rfl
@[simp] theorem forAll_cons (n : Nat) (ns : List Nat) (f : Nat → State → State) (s : State) :
    forAll (n :: ns) f s = forAll ns f (f n s) := rfl

/-- What each step of a sweep keeps, the sweep keeps. -/
theorem forAll_keeps (P : State → Prop) {f : Nat → State → State} (hf : ∀ n t, P t → P (f n t)) :
    ∀ (ns : List Nat) {s : State}, P s → P (forAll ns f s)
  | [], _, h => h
  | n :: ns, _, h => forAll_keeps P hf ns (hf n _ h)

@[simp] theorem doIf_true (f : State → State) (s : State) : doIf true f s = f s := rfl
@[simp] theorem doIf_false (f : State → State) (s : State) : doIf false f s = s := rfl

/-- What a change keeps, it keeps when it is made on a condition. -/
theorem doIf_keeps (P : State → Prop) (b : Bool) {f : State → State} {s : State} (hf : P s → P (f s)) (h : P s) :
    P (doIf b f s) := by
  cases b
  · exact h
  · exact hf h

@[simp] theorem addDue_due_eq (d : Due) (s : State) : (addDue d s).due = s.due ++ [d] := rfl
@[simp] theorem raise_mem (b i : Nat) (u : Word) (s : State) : (raise b i u s).mem = s.mem := rfl
@[simp] theorem raise_pending (b i : Nat) (u : Word) (s : State) : (raise b i u s).pending = s.pending := rfl
@[simp] theorem freshWord_fst (s : State) : (freshWord s).1 = Config.freeWord s.free := rfl
@[simp] theorem freshWord_mem (s : State) : (freshWord s).2.mem = s.mem := rfl

/-- Every counter step leaves memory as it is. -/
@[simp] theorem countBy_mem (n ofs m : Nat) (s : State) : (countBy n ofs m s).mem = s.mem := by
  simp only [countBy, wordsOf, setRgs, setRg_mem]
@[simp] theorem count_mem (n ofs : Nat) (s : State) : (count n ofs s).mem = s.mem := countBy_mem _ _ _ _

/-! ### One write of words to memory (R240) -/

@[simp] theorem memWord_setReg (k a : Nat) (v : Word) (s : State) : memWord k (setReg a v s) = memWord k s := rfl

theorem setRgs_mem (b o : Nat) (ws : List Word) (s : State) : (setRgs b o ws s).mem = s.mem := by
  induction ws generalizing o s with
  | nil => rfl
  | cons w ws ih => rw [setRgs, ih]; rfl

theorem gdErr_mem (k kind : Nat) (s : State) : (gdErr k kind s).mem = s.mem := by
  unfold gdErr; dsimp only; rw [setRg_mem, setRgs_mem]

/-- The read-modify-write of a block changes no word. -/
theorem rmwBlock_mem (ks : List Nat) (k : Nat) (s : State) : (rmwBlock ks k s).mem = s.mem := by
  unfold rmwBlock; dsimp only
  split
  · rfl
  · split
    · rw [raise, addDue_mem, count_mem]; rfl
    · rw [raise, addDue_mem, count_mem, gdErr_mem]

theorem rmwBlocks_mem (ks : List Nat) (s : State) : (rmwBlocks ks s).mem = s.mem := by
  unfold rmwBlocks; split
  · rfl
  · rename_i h; clear h; unfold forAll
    generalize (((ks.filter fun k => !isSram k).map fun k => k / 16 * 16).eraseDups) = bs
    induction bs generalizing s with
    | nil => rfl
    | cons b bs ih => rw [List.foldl_cons, ih, rmwBlock_mem]

/-- A byte outside the stored words stays. -/
theorem getByte_memStore_ne {b : Nat} (kws : List (Nat × Word)) (s : State) (h : ∀ kw ∈ kws, b / 2 ≠ kw.1) :
    getByte b (memStore kws s).mem = getByte b s.mem := by
  unfold memStore
  rw [← rmwBlocks_mem (kws.map fun kw => kw.1) s]
  generalize rmwBlocks (kws.map fun kw => kw.1) s = t
  induction kws generalizing t with
  | nil => rfl
  | cons kw kws ih =>
    rw [List.foldl_cons, ih fun x hx => h x (List.mem_cons_of_mem _ hx), getByte_memPut_ne _ _ (h kw List.mem_cons_self)]

/-- A write keeps the canonical form of memory. -/
theorem Memory.wf_memStore (kws : List (Nat × Word)) {s : State} (h : Memory.wf s.mem = true) :
    Memory.wf (memStore kws s).mem = true := by
  unfold memStore
  rw [← rmwBlocks_mem (kws.map fun kw => kw.1) s] at h
  generalize rmwBlocks (kws.map fun kw => kw.1) s = t at h
  induction kws generalizing t with
  | nil => exact h
  | cons kw kws ih => exact ih _ (Memory.wf_memPut kw.1 kw.2 h)

/-- A write of one SRAM word is the plain one. -/
theorem memStore_sram {k : Nat} (w : Word) (s : State) (h : isSram k = true) : memStore [(k, w)] s = memPut k w s := by
  have e : rmwBlocks [k] s = s := by
    unfold rmwBlocks; split
    · rfl
    · simp [h, forAll]
  simp [memStore, e]

end Sys2Proof.Machine
end

