-- ==== Sys2Proof/Laws/Settle.lean ====
section
/-! SUPPORT. What working off answers, what the frames of the commands' meanings answer, and the two forms of a step. -/
set_option Elab.async false
namespace Sys2Proof.Machine
open Sys2Proof

/-! ### Working off -/

@[simp] theorem settle_zero (s : State) : settle 0 s = s := rfl

/-- Nothing owed: nothing is worked off. -/
theorem settle_of_nil (n : Nat) {s : State} (h : s.due = []) : settle n s = s := by
  cases n with
  | zero => rfl
  | succ n => rw [settle]; simp [h]

theorem settle_cons (n : Nat) {s : State} {d : Due} {ds : List Due} (h : s.due = d :: ds) :
    settle (n + 1) s = settle n (settleOne d { s with due := ds }) := by
  rw [settle]; simp [h]

/-- What every single thing worked off keeps, working off keeps. -/
theorem settle_keeps (P : State → Prop) (h1 : ∀ d ds s, P s → P (settleOne d { s with due := ds })) :
    ∀ (n : Nat) {s : State}, P s → P (settle n s)
  | 0, _, h => h
  | n + 1, s, h => by
    cases hd : s.due with
    | nil => rw [settle_of_nil _ hd]; exact h
    | cons d ds => rw [settle_cons n hd]; exact settle_keeps P h1 n (h1 d ds s h)

/-- No stall is over: no context is woken. -/
theorem wake_of_none {s : State} (h : ∀ kc ∈ s.ctx, stallOver kc.1 kc.2 s = false) : wake s = s := by
  have : s.ctx.filter (fun kc => stallOver kc.1 kc.2 s) = [] := by
    rw [List.filter_eq_nil_iff]; intro kc hk; simp [h kc hk]
  rw [wake, this]; rfl

/-- A settled state entails nothing. -/
theorem afterwards_of_settled {u : State} (h : Settled u) : afterwards u = u := by
  unfold afterwards
  rw [settle_of_nil _ h.1, wake_of_none h.2, settle_of_nil _ h.1]

/-- A command's own effect stands where it entails nothing. -/
theorem done_of_settled {s u : State} (h : Settled u) (hp : u.pending = s.pending) : done s u = u := by
  unfold done
  rw [afterwards_of_settled h, ← hp]

@[simp] theorem done_pending (s u : State) : (done s u).pending = s.pending := rfl

/-! ### The frames of the meanings -/

theorem act_up {s : State} (f : State → State) (h : up s = true) : act s f = .next (done s (f s)) := by
  simp [act, h, done]

theorem act_down {s : State} (f : State → State) (h : up s = false) : act s f = .next s := by
  simp [act, h]

theorem actAlways_eq (s : State) (f : State → State) : actAlways s f = .next (done s (f s)) := rfl

/-- A meaning that keeps the queue goes on. -/
def KeepsQueue (s : State) (o : Host.Outcome State Fault Refusal) : Prop := ∃ t, o = .next t ∧ t.pending = s.pending

theorem act_keeps (s : State) (f : State → State) : KeepsQueue s (act s f) := by
  refine ⟨_, rfl, ?_⟩
  split <;> rfl

theorem actAlways_keeps (s : State) (f : State → State) : KeepsQueue s (actAlways s f) := ⟨_, rfl, rfl⟩

/-! ### The step -/

theorem step_nil {s : State} (h : s.pending = []) : step s = .next (idle s) := by
  rw [step]; simp [h]

theorem step_cons {s : State} {c : Instr} {cs : List Instr} (h : s.pending = c :: cs) :
    step s = exec c { s with pending := cs } := by
  rw [step]; simp [h]

@[simp] theorem idle_pending (s : State) : (idle s).pending = s.pending := rfl

end Sys2Proof.Machine
end

