-- ==== Sys2Proof/Tests/Slice0.lean ====
section
/-! SUPPORT. Tests: terms that well-formedness refuses; results worked out in the spec's own examples and by hand from its
tables; and for each statement with hypotheses, states and operands that meet them, clause by clause. -/
set_option Elab.async false
namespace Sys2Proof.Tests
open Sys2Proof Sys2Proof.Machine

/-! ### Ill-formed commands are refused, one for each check of WellFormed -/

/-- An immediate of 17 bits without WIDE; MOV from memory; condition 0xF. -/
theorem test_wf_operands :
    (Instr.add { sub := 0 } 1 (.imm 0x10000)).wf = false ∧ (Instr.mov { sub := 0 } 1 (.mem (.ind 2))).wf = false ∧
    (Instr.mov { sub := 0 } 1 (.imm 0x10000)).wf = false ∧ (Instr.bcc { sub := 0 } 0xF (.d8 0)).wf = false ∧
    (Instr.add { sub := 0, wide := true } 2 (.imm 0x10000)).wf = true := by decide

/-- A payload that is not LEN blocks of 4 words. -/
theorem test_wf_packet : ({ dest := 0, src := 0, len := 1, payload := [1, 2, 3] } : Packet).wf = false ∧
    ({ dest := 0, src := 0, len := 1, payload := [1, 2, 3, 4] } : Packet).wf = true := by decide

/-- A fourth BAR, a read of no words, a write of none, six rails, seven sensors, scope 0 and 5, BYPASS by IDCODE's code. -/
theorem test_wf_ports :
    (Instr.pcieReadRequest 3 0 1).wf = false ∧ (Instr.pcieReadRequest 0 0 0).wf = false ∧
    (Instr.pcieWriteRequest 0 0 []).wf = false ∧ (Instr.voltageMonitorSample (List.replicate 6 0) (List.replicate 16 0)).wf = false ∧
    (Instr.temperatureSample (List.replicate 7 0)).wf = false ∧ (Instr.unitResetEnd 0 1).wf = false ∧
    (Instr.resetShadowEnd 5 1).wf = false ∧ (Instr.bypass 0x01).wf = false := by decide

/-! ### The spec's worked examples -/

/-- R182, the table of packed-decimal results: words, Z, N, overflow; none where the fields are not valid. -/
theorem test_decimal_table :
    decAdd 3 false [0x999C] [0x001C] = some ([0x000C], true, false, true) ∧
    decAdd 3 true [0x999D] [0x001C] = some ([0x000D], true, true, true) ∧
    decAdd 3 true [0x005C] [0x007C] = some ([0x002D], false, true, false) ∧
    decAdd 3 false [0x000D] [0x000C] = some ([0x000C], true, false, false) ∧
    decAdd 3 false [0x123F] [0x001A] = some ([0x124C], false, false, false) ∧
    decAdd 3 false [0x500B] [0x300C] = some ([0x200D], false, true, false) ∧
    decAdd 3 false [0x0A5C] [0x001C] = none ∧ decAdd 3 false [0x1230] [0x001C] = none ∧
    decAdd 5 false [0x1012, 0x345C] [0x0000, 0x001C] = none ∧
    decAdd 5 false [0x0012, 0x345C] [0x0000, 0x001C] = some ([0x0012, 0x346C], false, false, false) := by
  refine ⟨?_, ?_, ?_, ?_, ?_, ?_, ?_, ?_, ?_, ?_⟩ <;> decide +kernel

/-- The worked example after R182: the bytes of its instructions. -/
theorem test_meter_bytes :
    decodeIns 0x302 [0x74, 0x0B, 0x21] = some (.dadd { sub := 0x302 } 2 1 11) ∧
    decodeIns 0x302 [0xC4, 0xF1, 0xC3] = some (.bfx { sub := 0x302 } 15 1 12 3) ∧
    decodeIns 0x302 [0x8E, 0x43] = some (.moved { sub := 0x302 } false 2 3) ∧
    decodeIns 0x302 [0xE3, 0x8C, 0xA2] = some (.fcvt { sub := 0x302, dbl := true } 2 2 2) ∧
    decodeIns 0x302 [0xE3, 0x83, 0xF6] = some (.fma { sub := 0x302, dbl := true } 3 3 1 2) ∧
    decodeIns 0x302 [0xE3, 0x83, 0x36] = some (.fma { sub := 0x302, dbl := true } 0 3 1 2) := by
  decide +kernel

/-- The same example: 2 as a double, 1 × 10 + 2, and 12345678 × 2^-13 − 0.5, all exact. -/
theorem test_meter_fma :
    fcvt 2 true 0 2 = (0x4000000000000000, 0) ∧
    double.fma 0 false 0x3FF0000000000000 0x4024000000000000 0x4000000000000000 = (0x4028000000000000, 0) ∧
    double.fma 0 false 0x41678C29C0000000 0x3F20000000000000 0xBFE0000000000000 = (0x40978A29C0000000, 0) := by
  decide +kernel

/-- R312: the CRC's check value over "123456789". -/
theorem test_crc : crc16 [0x31, 0x32, 0x33, 0x34, 0x35, 0x36, 0x37, 0x38, 0x39] = 0x29B1 := by decide +kernel

/-- R149: ADD wraps with C and Z, SUB borrows, SAR keeps the sign, ROL by the width sets C to bit 0. -/
theorem test_flags :
    aluAdd 16 0xFFFF 1 0 = ⟨0, true, false, some true, some false⟩ ∧ aluAdd 16 0x7FFF 1 0 = ⟨0x8000, false, true, some false, some true⟩ ∧
    aluSub 16 0 1 0 = ⟨0xFFFF, false, true, some true, some false⟩ ∧ (aluSar 16 0x8000 4).res = 0xF800 ∧
    aluRol 16 0x8001 16 = ⟨0x8001, false, true, some true, some false⟩ := by decide +kernel

/-- R4, R6: the register that the manual's log example writes, CQ_MODT of queue 32 (R371). -/
theorem test_cq_address : ra 1 (cqOfs 32 + 4) = 0x20010A04 := by decide

/-- R5, R45, R2: reads after reset: the part code, grate 9's owner, FRM_PERIOD. -/
theorem test_reset_reads :
    (busRead .i3c 0x200C0000 State.reset).1 = 0x2416 ∧ grateOwner 9 State.reset = 9 ∧ rgs 0 2 2 State.reset = 125000 := by
  decide +kernel

/-! ### Small states -/

/-- The device runs: RESET_N high, the timebase PLL locked. -/
def sR : State := { State.reset with pwr := { State.reset.pwr with resetN := true, pll := true } }
/-- Boot has reached stage 8. -/
def sB : State := { sR with boot := { sR.boot with stage := 8 } }
/-- Context 0 of stoker 0 runs a procedure. -/
def ctxOn (c : Ctx) : State := { sB with ctx := [(0, { c with run := .running })], sch := [(0, { st := .active, phase := .proc })], stk := [(0, { cur := some 0 })] }
/-- The same with register values. -/
def sX : State := ctxOn { r := [(0,0x1234),(1,0x8001),(2,0x00FF),(3,7),(5,0xFFFF),(0x1D,0)], pc := 0x100 }
/-- Grate g runs and its next microword is u with this OP. -/
def sq (op : BitVec 6) (u : Micro) (x : Grate) (s : State) (g : Nat := 3) : State :=
  let w := microBits op u
  let x := { x with run := true, npc := 7 }
  setRgs (bGrt g) (0x1000 + 4 * x.npc.toNat) [w.extractLsb' 32 16, w.extractLsb' 16 16, w.extractLsb' 0 16] (modGrate g (fun _ => x) s)
def m (op : BitVec 6) (u : Micro) : State := sq op u {} (setRgs (bGrt 3) 0x310 [0x8001, 0xFFFF] sB)
def rX : FMap Word := [(0,0x1234),(1,0x8001),(2,0x00FF),(3,7),(4,0xF00F),(5,0xFFFF),(6,0x8000),(8,0x3FF0),(9,3),(0x10,0x100),(0x11,0x108),(0x17,0x200),(0x1D,2)]
def sY : State := { ctxOn { r := rX, pc := 0xFFFFF0, e := [(0, 0x3FF8000000000000), (1, 0xC000000000000003), (2, 0x40600000)] } with mem := [(0x22000200,0x12),(0x22000201,0x34),(0x22000210,0x80),(0x22000211,1),(0x22000400, 1), (0x22000403,0x55)] , free := 7}
def sZ : State := ctxOn { r := [(0x1D, 0xF)] }
def sF (x : FrameT) : State := {sB with ft := x}
def sT : State := {sR with ft := {sR.ft with running := true, tickDtb := 1000000, dtb := 1000100, nextTick := 2000000, sync := .locked, captured := false}, regs := [(ra 0x105 8, 3), (ra 0x105 0x500, 0x8003), (ra 0x105 0x502, 9)]}
def sK : State := setRgs (bGrt 3) 0x310 [1, 2, 0xFFFF, 0x8000, 5, 6, 7, 8] sB
def sK2 : State := { setRg (bGrt 3) 0x308 0x0C17 (setRg (bGrt 3) 0x309 0x1021 sK) with ft := {sB.ft with dtb := 99}, fifos := [(26,{q := [{w:=5}], mid := true}),(29, {q := [{w := 0x77, eop := true},{w := 1}], dropBit := true})], pins := [(48, {oe := true, out := true}), (50, {lvl := true, fq := (List.range 32).map fun i => {time := i, act := 0}}),(53,{lvl := true})] }
def sPath : State := setRg 0x100 0x60A 0xC021 (setRg 0x100 0x608 0xC000 (setRg 0x100 0x605 2 sB))
def lastHeld (n : Nat) (s : State) : Status := ((sch n s).held.getLast?).getD {}
def withSt (x : Sch) : State := {sPath with sch := [(0, x)]}
def cqOn (s : State) : State := {setRgs 1 (cqOfs 0) [0xC400, 0x1100, 0] s with cqs := [(0, {ready := true, waiting := [.sub 0, .sub 4]})], mem := [(0x22000000, 0x80)]}
def chS (c0 : Word) (x : Sch) : State := {sPath with sch := [(5, {x with words := [c0,0,0,0,0,0,0,0], st := .active})]}
def w17_chS (c0 : Word) (x : Sch) : State := {sB with sch := [(5, {x with words := [c0,0,0,0,0,0,0,0], st := .active})]}
def rd (r : FMap Word) (x : Sch) : State := {ctxOn {r := r, pc := 0x12FFFF} with sch := [(0, {x with st := .active, phase := .proc})]}
def stS : State := {setRgs 0x103 0x100 [0x1000, 1] sB with stk := [(3, {insvc := [(4,5),(6,7)], ic := [(8, {base := 0, words := []})]})], presented := [(3, 9)], free := 3, ctx := [(0x35, {r := [(3,4)], pc := 0x123456, run := .stopped, stopped := true})], sch := [(0x35, {phase := .proc, st := .active})]}
def dsc (w0 w1 : Word) (src dst n : Nat) (w7 : Word := 0) : List Word := [w0, w1] ++ wordsOf 2 src ++ wordsOf 2 dst ++ [wd n, w7]
def sL : State := {setRg 0x19 (lnOfs 5 4) 1518 (setRg 0x19 (lnOfs 5 0) 0x2000 sB) with bulk := {sB.bulk with on := false}}
def sL2 : State := setRg 0x19 (lnOfs 5 2) 0x8000 sL
def fr0 : RxFrame := {bytes := (List.range 65).map fun i => BitVec.ofNat 8 i, stamp := 0x123456789}
def sBk : State := {sB with bulk := {sB.bulk with linkUp := true}, mem := [(0x100000100, 0x12), (0x100000101,0x34)]}
def w9_sF : State := setRg (bFl 2) 1 0x8F00 (setRg (bFl 2) 0 0x800F sB)
def tp (n : BitVec 12) : TxPacket := {typ := 1, p := {dest := 3, src := 4, seq := n}}
def sUp : State := {setRg 0x14 0x100 0x1400 w9_sF with ft := {w9_sF.ft with running := true}}
def pk (cnt : BitVec 4) (pay : List Word) (tag : Byte := 7) : Packet := {dest := 0, src := 3, seq := 5, len := BitVec.ofNat 4 (pay.length / 4), tag := tag, cnt := cnt, payload := pay}
def w10_sF : State := setRg (bFl 2) 1 0x8F00 (setRg (bFl 2) 0 0x800F {sB with flues := [(2, {rxSeq := 5})], mem := [(0x22000000, 9), (0x22000003, 8)]})
def sE : State := {setRgs (bHrt 2) 0x200 (List.replicate 8 0xFFFF) sB with stk := [(129, {claims := [5, 6], dones := [5], cur := none})]}
def w10b_sE : State := {setRgs (bHrt 2) 0x20 (List.replicate 48 0) (setRgs (bHrt 2) 0x100 (List.replicate 8 0xFFFF) sB) with stk := [(129, {claims := [5, 6], dones := [5], cur := none})]}
def sE2 : State := evPut (bHrt 2) 0x140 5 true w10b_sE
def sE3 : State := setRg (bHrt 2) 4 64 {sE2 with fc := {sE2.fc with inReset := [(1,128)]}}
def sH (n : Nat) (s : State) : State := evPut 2 0x20 n true (evPut 2 0x10 n true s)
def sH2 : State := {setRg 2 0 1 (sH 5 sB) with i3c := {sB.i3c with da := some 9}}
def sD (c : I3c) : State := {setRg 1 2 0x09 (setRg 1 0 3 sB) with i3c := c}
def sW (mm : List Host.Cell) : State := {setRg 9 1 0x8F00 sB with i3c := {da := some 4}, mem := mm}
def sQ : State := {setRgs 1 (wqOfs 3 + 1) [0x1100, 0] (setRgs 1 (cqOfs 3 + 1) [0x1100, 0x0100] sB) with free := 2}
def memOf (k : Nat) (ws : List Word) : List Host.Cell := ws.zipIdx.flatMap fun (w, i) => [(2*(k+i), (w >>> 8).setWidth 8), (2*(k+i)+1, w.setWidth 8)].filter fun p => p.2 != 0
def ent (o : Word) : List Word := [o, 1, 0, 0, 0, 0, 0, 0, 0, 0, 0, 0, 0, 0, 0, 0]
def sQ2 : State := {setRg 1 (wqOfs 3 + 5) 1 (setRg 1 (wqOfs 3) 0x8405 sQ) with wqs := [(3, {ready := true, polling := true})], mem := memOf 0x11000000 (ent 0xA000)}
def ansOn (s : State) : State := {setRgs 1 (cqOfs 5) [0x8400, 0x1100, 0x0200] s with cqs := [(5, {ready := true})], mem := [(0x22000400, 0x80)]}
def sFl : State := setRg 0x20 0x7002 0xFFFF sB
def sSo : State := {sB with fc := {sB.fc with soot := [{w0 := 1, w1 := 2, dtb := 0x123456789}]}, mram := [(0, 3), (5,6), (9,9)]}
def s0 : State := {sB with pwr := {sB.pwr with pll := false}}
def slot (k : Nat) (v : Word) : FMap Word := let w : List Word := [0, 0, v, 0, 1];
  (w ++ [crc16 (bytesOf w)]).zipIdx.map fun (x, i) => (0x8000 + 16*k + i, x)
def sIdx : State := {sB with mram := slot 0 1 ++ slot 1 5 ++ slot 2 2 ++ slot 3 9 ++ slot 4 4 ++ slot 5 3 ++ slot 6 0 ++ slot 7 8}
def sIdx2 : State := {setRg 4 0 0x4000 sIdx with sec := {sB.sec with state := 1, signing := true, next := 5, resEnd := 9, words := List.replicate 72 3}}

theorem gradeMax_bounds : 1600 ≤ gradeMax ∧ gradeMax ≤ 1680 := by
  unfold gradeMax
  split <;> decide

/-! ### The hypotheses of the statements are met -/

theorem witness_AluWrites :
    (let i : Iss := {sub := 0, wide := true, noflag := true}; let dn : Dreg := 14; let src : AluSrc := .reg 2;
      let s : State := sX; let v : W32 := 0xFFFFFFFF; (ready i.sub s = true) ∧ (i.rep = Rep.none) ∧ (i.dbl = false) ∧
      (i.bank = none) ∧ (i.atom = false) ∧ (i.wide = true → BitVec.toNat dn % 2 = 0) ∧
      (match src with | AluSrc.reg m => i.wide = true → BitVec.toNat m % 2 = 0 | AluSrc.imm v => BitVec.toNat v < 32 | AluSrc.mem ea => False)) := by
  all_goals decide +kernel

theorem witness_UnaryAndBitOpcodes :
    (let sub : Sys2Proof.Sub := 0; let i : Iss := {sub := 0}; let dn : Dreg := 2; let dm : Dreg := 1; let s : State := sY;
      let pos : BitVec 4 := 3; let wid1 : BitVec 4 := 12; (ready i.sub s = true) ∧ (i.rep = Rep.none) ∧ (i.dbl = false) ∧
      (i.bank = none) ∧ (i.atom = false) ∧ (i.wide = true → BitVec.toNat dn % 2 = 0 ∧ BitVec.toNat dm % 2 = 0) ∧
      (i.noflag = false) ∧ (i.wide = false) ∧ (ready sub s = true) ∧ (pos.toNat + wid1.toNat + 1 ≤ 16)) := by
  all_goals decide +kernel

theorem witness_ControlOpcodes :
    (let sub : Sys2Proof.Sub := 0; let s : State := sY; let dn : Dreg := 4; let cc : BitVec 4 := 1; let cnt : Word := 3;
      let len : Word := 5; let dk : Dreg := 3; (ready sub s = true) ∧ (BitVec.toNat dn % 2 = 0) ∧ (cc ≠ 15) ∧
      (condHolds cc.toNat (getF (ctx (BitVec.toNat sub) s)) = true) ∧ (len ≠ 0) ∧ (cnt ≠ 0) ∧
      (getD (BitVec.toNat dk) (ctx (BitVec.toNat sub) s) ≠ 0)) ∧
    (let sub : Sys2Proof.Sub := 0; let s : State := sY; let cc : BitVec 4 := 3; (ready sub s = true) ∧ (cc ≠ 15) ∧
      (condHolds cc.toNat (getF (ctx (BitVec.toNat sub) s)) = false)) ∧
    (let sub : Sys2Proof.Sub := 0; let s : State := sZ; let dk : Dreg := 2; let len : Word := 0xFFFF; (ready sub s = true) ∧
      (len ≠ 0) ∧ (getD (BitVec.toNat dk) (ctx (BitVec.toNat sub) s) = 0)) := by
  refine ⟨?_, ?_, ?_⟩
  all_goals decide +kernel

theorem witness_LoopsAndRepetition :
    (let sub : Sys2Proof.Sub := 0; let l : LoopEnt := ({ls := 3, le := 0xFFFFF1, lc := 2} : LoopEnt);
      let s : State := {sY with ctx := [(0, {ctx 0 sY with loops := [l]})]};
      (ready sub (modCtx (BitVec.toNat sub) (fun c => { c with loops := [] }) s) = true) ∧
      ((ctx (BitVec.toNat sub) s).loops = [l]) ∧ (l.le = (ctx (BitVec.toNat sub) s).pc + 1) ∧ (2 ≤ BitVec.toNat l.lc)) ∧
    (let sub : Sys2Proof.Sub := 0; let l : LoopEnt := ({ls := 3, le := 0xFFFFF1, lc := 1} : LoopEnt);
      let s : State := {sY with ctx := [(0, {ctx 0 sY with loops := [l]})]};
      (ready sub (modCtx (BitVec.toNat sub) (fun c => { c with loops := [] }) s) = true) ∧
      ((ctx (BitVec.toNat sub) s).loops = [l]) ∧ (l.le = (ctx (BitVec.toNat sub) s).pc + 1) ∧ (BitVec.toNat l.lc < 2)) ∧
    (let sub : Sys2Proof.Sub := 0; let l : LoopEnt := ({ls := 3, le := 0xFFFFF2, lc := 1} : LoopEnt);
      let s : State := {sY with ctx := [(0, {ctx 0 sY with loops := [l]})]};
      (ready sub (modCtx (BitVec.toNat sub) (fun c => { c with loops := [] }) s) = true) ∧
      ((ctx (BitVec.toNat sub) s).loops = [l]) ∧ (l.le ≠ (ctx (BitVec.toNat sub) s).pc + 1)) ∧
    (let sub : Sys2Proof.Sub := 0; let n : Byte := 2; let s : State := sY; (ready sub s = true) ∧ (2 ≤ BitVec.toNat n)) ∧
    (let sub : Sys2Proof.Sub := 0; let n : Byte := 0; let s : State := sY; (ready sub s = true) ∧ (n = 0)) ∧
    (let sub : Sys2Proof.Sub := 0; let n : Byte := 1; let s : State := sY; (ready sub s = true) ∧ (n = 1)) := by
  refine ⟨?_, ?_, ?_, ?_, ?_, ?_⟩
  all_goals decide +kernel

theorem witness_RegisterMoves :
    (let sub : Sys2Proof.Sub := 0; let xd : Xr := 0x1D; let xs : Xr := 0x10; let e : EA := .index 1 5; let s : State := sY;
      let m : Nat := 1; let d : Nat := ((eaOffset e (ctx 0 s)).getD (0,0)).2; (ready sub s = true) ∧
      (xrBad (BitVec.toNat xd) = false) ∧ (xrUnit (BitVec.toNat xd) = false) ∧ (xrBad (BitVec.toNat xs) = false) ∧
      (leaMode e = true) ∧ (eaOffset e (ctx (BitVec.toNat sub) s) = some (m, d))) := by
  all_goals decide +kernel

theorem witness_MultiplyDivide :
    (let i : Iss := {sub := 0}; let dn : Dreg := 4; let dm : Dreg := 1;
      let d : Divide := ({quo := 5, rem := 6, v := true, dz := true} : Divide);
      let q : Product := ({wide := true, p := 0x123456789abcdef0} : Product);
      let s : State := {sY with ctx := [(0, {ctx 0 sY with prods := [q], div := some d})]}; (i.rep = Rep.none) ∧
      (i.dbl = false) ∧ (i.bank = none) ∧ (i.atom = false) ∧ (i.noflag = false) ∧
      (i.wide = true → BitVec.toNat dm % 2 = 0) ∧ (BitVec.toNat dn % 2 = 0) ∧ (up s = true) ∧
      (List.find? (fun kv => kv.fst == BitVec.toNat i.sub) s.loads = none) ∧ ((ctx (BitVec.toNat i.sub) s).prods = [q]) ∧
      ((ctx (BitVec.toNat i.sub) s).div = some d)) ∧
    (let i : Iss := {sub := 0}; let dn : Dreg := 4; let dm : Dreg := 1; let s : State := sY; (i.rep = Rep.none) ∧
      (i.dbl = false) ∧ (i.bank = none) ∧ (i.atom = false) ∧ (i.noflag = false) ∧
      (i.wide = true → BitVec.toNat dm % 2 = 0) ∧ (BitVec.toNat dn % 2 = 0) ∧ (ready i.sub s = true)) := by
  refine ⟨?_, ?_⟩
  all_goals decide +kernel

theorem witness_FloatOpcodes :
    (let sub := 0; let i : Iss := {sub := 0}; let kind : BitVec 4 := 0; let s : State := sY; (ready i.sub s = true) ∧
      (i.rep = Rep.none) ∧ (i.wide = false) ∧ (i.bank = none) ∧ (i.atom = false) ∧ (i.noflag = false) ∧
      (loopBusy (BitVec.toNat i.sub) (ctx (BitVec.toNat i.sub) s) s = false) ∧ (kind.toNat < 8) ∧
      (kind.toNat < 2 → i.dbl = false)) ∧
    (let sub := 0; let i : Iss := {sub := 0}; let ed : Ereg := 1;
      let q : FpOp := ({ed := 1, val := 0x123, flags := 0x300}:FpOp);
      let s : State := {sY with ctx := [(0, {ctx 0 sY with fops := [q]})]}; (up s = true) ∧
      (List.find? (fun kv => kv.fst == BitVec.toNat i.sub) s.loads = none) ∧ ((ctx (BitVec.toNat i.sub) s).fops = [q]) ∧
      (q.ed = ed)) := by
  refine ⟨?_, ?_⟩
  all_goals decide +kernel

theorem witness_LongIntegers :
    (let sub : Sys2Proof.Sub := 0; let s : State := sY; (ready sub s = true)) := by
  all_goals decide +kernel

theorem witness_Loads :
    (let sub : Sys2Proof.Sub := 0; let e : EA := .ind 0; let ks : List Nat := [0x11000100]; let ws : List Word := [0x1234];
      let s : State := sY; let x : Xr := 3; let an : Areg := 0; (ready sub s = true) ∧ (xrBad (BitVec.toNat x) = false) ∧
      (xrUnit (BitVec.toNat x) = false) ∧ (placesAt sub (eaEval (bare sub) e 1 (ctx (BitVec.toNat sub) s)).fst ks s) ∧
      (loadsAt sub ks ws s) ∧ (placesAt sub (eaEval (bare sub) (EA.postInc an) 1 (ctx (BitVec.toNat sub) s)).fst ks s)) ∧
    (let sub : Sys2Proof.Sub := 0; let e : EA := .ind 0; let ks : List Nat := [0x11000100,0x11000101,0x11000102,0x11000103];
      let ws : List Word := [0x1234,0,0,0]; let s : State := sY; (ready sub s = true) ∧
      (placesAt sub (eaEval (bare sub) e 4 (ctx (BitVec.toNat sub) s)).fst ks s) ∧ (loadsAt sub ks ws s)) := by
  refine ⟨?_, ?_⟩
  all_goals first | decide +kernel | (simp only [placesAt, wordsAt, loadsAt]; decide +kernel)

theorem witness_StackOpcodes :
    (let sub : Sys2Proof.Sub := 0; let ks : List Nat := [0x110001FE, 0x110001FF]; let s : State := sY; let dn : Dreg := 4;
      (ready sub s = true) ∧
      (placesAt sub (bankAddrs (bare sub) 7 (BitVec.toNat (getA 7 (setA 7 (getA 7 (ctx (BitVec.toNat sub) s) - wd 2) (ctx (BitVec.toNat sub) s)))) 2 (setA 7 (getA 7 (ctx (BitVec.toNat sub) s) - wd 2) (ctx (BitVec.toNat sub) s))) ks s) ∧
      (BitVec.toNat dn % 2 = 0)) ∧
    (let sub : Sys2Proof.Sub := 0; let ks : List Nat := [0x11000200]; let ws : List Word := [0x100]; let s : State := sY;
      let x : Xr := 0x17; (ready sub s = true) ∧ (xrBad (BitVec.toNat x) = false) ∧ (xrUnit (BitVec.toNat x) = false) ∧
      (placesAt sub (bankAddrs (bare sub) 7 (BitVec.toNat (getA 7 (ctx (BitVec.toNat sub) s))) 1 (ctx (BitVec.toNat sub) s)) ks s) ∧
      (loadsAt sub ks ws s)) ∧
    (let sub : Sys2Proof.Sub := 0; let ks : List Nat := [0x11000200,0x11000201]; let ws : List Word := [0x100, 0x0055];
      let s : State := sY; (ready sub s = true) ∧
      (placesAt sub (bankAddrs (bare sub) 7 (BitVec.toNat (getA 7 (ctx (BitVec.toNat sub) s))) 2 (ctx (BitVec.toNat sub) s)) ks s) ∧
      (loadsAt sub ks ws s)) ∧
    (let sub : Sys2Proof.Sub := 0; let ks : List Nat := [0x110001FF]; let s : State := sY; let x : Xr := 0x17;
      (ready sub s = true) ∧ (xrBad (BitVec.toNat x) = false) ∧
      (placesAt sub (bankAddrs (bare sub) 7 (BitVec.toNat (getA 7 (setA 7 (getA 7 (ctx (BitVec.toNat sub) s) - wd 1) (ctx (BitVec.toNat sub) s)))) 1 (setA 7 (getA 7 (ctx (BitVec.toNat sub) s) - wd 1) (ctx (BitVec.toNat sub) s))) ks s)) := by
  refine ⟨?_, ?_, ?_, ?_⟩
  all_goals first | decide +kernel | (simp only [placesAt, wordsAt, loadsAt]; decide +kernel)

theorem witness_Stores :
    (let sub : Sys2Proof.Sub := 0; let e : EA := .ind 0; let ks : List Nat := [0x11000100]; let s : State := sY;
      let x : Xr := 3; let an : Areg := 0; (ready sub s = true) ∧ (xrBad (BitVec.toNat x) = false) ∧
      (placesAt sub (eaEval (bare sub) e 1 (ctx (BitVec.toNat sub) s)).fst ks s) ∧
      (placesAt sub (eaEval (bare sub) (EA.postInc an) 1 (ctx (BitVec.toNat sub) s)).fst ks s)) ∧
    (let sub : Sys2Proof.Sub := 0; let e : EA := .postInc 0;
      let ks : List Nat := [0x11000100,0x11000101,0x11000102,0x11000103]; let s : State := sY; (ready sub s = true) ∧
      (placesAt sub (eaEval (bare sub) e 4 (ctx (BitVec.toNat sub) s)).fst ks s)) := by
  refine ⟨?_, ?_⟩
  all_goals first | decide +kernel | (simp only [placesAt, wordsAt, loadsAt]; decide +kernel)

theorem witness_MemoryAnswers :
    (let sub : Sys2Proof.Sub := 0; let st : Store := ({addr := [0x11000100,0x11000200], words := [0xABCD,0]} : Store);
      let rest : List Store := [({addr := [5], words := [7]} : Store)];
      let s : State := {sY with ctx := [(0, {ctx 0 sY with posted := st :: rest})]}; (up s = true) ∧
      ((ctx (BitVec.toNat sub) s).stall = Stall.none) ∧ ((ctx (BitVec.toNat sub) s).posted = st :: rest) ∧
      ((ctx (BitVec.toNat sub) s).drain = []) ∧ (st.tags = []) ∧ (outOfOrder (BitVec.toNat sub) st s = false) ∧
      (st.addr.length = st.words.length) ∧ (st.addr.Nodup) ∧
      (∀ (k : Nat), k ∈ st.addr → place none none k s = Place.mem k ∧ ¬(536870912 ≤ k ∧ k < 805306368))) ∧
    (let sub : Sys2Proof.Sub := 0; let k : Nat := 0x11000100;
      let e : LoadWait := ({before := {ctx 0 sY with r := [(0,9)]}, accs := [(0x100, [k])]} : LoadWait);
      let s : State := {sY with ctx := [(0, {ctx 0 sY with stall := .load, run := .stalled, pc := 0x77})], loads := [(0,e)]};
      let a : Nat := 0x100; let rest : List Nat := []; let w : Word := 0x1234; (up s = true) ∧
      ((ctx (BitVec.toNat sub) s).stall = Stall.load) ∧
      (List.find? (fun kv => kv.fst == BitVec.toNat sub) s.loads = some (BitVec.toNat sub, e)) ∧
      (e.accs = [(a, k :: rest)]) ∧ (k < 536870912) ∧ (memWord k s = some w)) := by
  refine ⟨?_, ?_⟩
  all_goals decide +kernel

theorem witness_ReadAndStoreOpcodes :
    (let sub : Sys2Proof.Sub := 0; let e : EA := .ind 0; let d : EA := .preDec 1; let ks : List Nat := [0x11000100];
      let ls : List Nat := [0x11000107]; let w : Word := 0x1234; let s : State := sY; let k : Nat := 0x11000100;
      (ready sub s = true) ∧ (placesAt sub (eaEval (bare sub) e 1 (ctx (BitVec.toNat sub) s)).fst ks s) ∧
      (loadsAt sub ks [w] s) ∧
      (placesAt sub (eaEval (bare sub) d 1 (eaEval (bare sub) e 1 (ctx (BitVec.toNat sub) s)).snd).fst ls s) ∧
      (placesAt sub (eaEval { sub := sub, atom := true } e 1 (ctx (BitVec.toNat sub) s)).fst [k] s) ∧ (wordsAt [k] [w] s)) := by
  all_goals first | decide +kernel | (simp only [placesAt, wordsAt, loadsAt]; decide +kernel)

theorem witness_PackedDecimal :
    (let sub : Sys2Proof.Sub := 0; let an : Areg := 0; let am : Areg := 1; let n : BitVec 5 := 3;
      let ks : List Nat := [0x11000100]; let ls : List Nat := [0x11000108]; let xs : List Word := [0x123C];
      let ys : List Word := [0x999C];
      let s : State := {sY with mem := [(2*0x11000100,0x12),(2*0x11000100+1,0x3C),(2*0x11000108,0x99),(2*0x11000108+1,0x9C)]};
      (ready sub s = true) ∧ (n ≠ 0) ∧
      (placesAt sub (bankAddrs (bare sub) (BitVec.toNat an) (BitVec.toNat (getA (BitVec.toNat an) (ctx (BitVec.toNat sub) s))) (decWords n.toNat) (ctx (BitVec.toNat sub) s)) ks s) ∧
      (loadsAt sub ks xs s) ∧
      (placesAt sub (bankAddrs (bare sub) (BitVec.toNat am) (BitVec.toNat (getA (BitVec.toNat am) (ctx (BitVec.toNat sub) s))) (decWords n.toNat) (ctx (BitVec.toNat sub) s)) ls s) ∧
      (loadsAt sub ls ys s)) := by
  all_goals first | decide +kernel | (simp only [placesAt, wordsAt, loadsAt]; decide +kernel)

theorem witness_FrameTimer :
    (let s : State := sF {snapDue := true}; (up s = true) ∧ (s.ft.snapDue = true)) ∧
    (let v : Word := 0x0042; let s : State := sF {running := true, stopPending := true}; (up s = true) ∧
      (s.ft.running = true) ∧ (s.ft.stopPending = true) ∧ (bit v 0 = false) ∧ (4 ≤ fld v 7 4) ∧ (fld v 7 4 ≤ 10)) ∧
    (let src : Src := .i3c; let v : Word := 0x0100; let s : State := sF {commitHi := 1, pendPeriod := some 125000};
      (up s = true) ∧ (s.ft.running = false) ∧ (s.ft.waiting = false) ∧ (booted s = true) ∧
      (∀ (sub : Sub), src = Src.stoker sub → (stk (stkOf (BitVec.toNat sub)) s).spec = none) ∧
      (List.find? (fun kv => kv.fst == stageKey src (ra 0 2)) s.staged = none) ∧
      (125 ≤ fld s.ft.commitHi 7 0 * 65536 + BitVec.toNat v) ∧ (256 ≤ BitVec.toNat (v &&& 65528))) ∧
    (let src : Src := .i3c; let v : Word := 0x0100; let h : Word := 0x0002;
      let s : State := {sF {} with staged := [(stageKey src (ra 0 2), h)]}; (up s = true) ∧
      (List.find? (fun kv => kv.fst == stageKey src (ra 0 2)) s.staged = some (stageKey src (ra 0 2), h)) ∧
      (125 ≤ fld h 7 0 * 65536 + BitVec.toNat v)) ∧
    (let sub : Sys2Proof.Sub := 0;
      let s : State := {sB with stk := [(0, {spec := some {owner := 0, x := {addr := 8, words := []}, ckpt := {}, curAddr := 0, curCnt := 0}})]};
      (up s = true) ∧ (onPath (BitVec.toNat sub) s = true)) ∧
    (let s : State := sF {sB.ft with running := true, inAsh := true, pendPeriod := some 125000}; (up s = true) ∧
      (s.ft.running = true) ∧ (s.ft.inAsh = true) ∧ (s.ft.stopPending = false) ∧ (s.ft.decided = false) ∧
      (schedStokers s = []) ∧ (256 ≤ (Option.map (fun a => BitVec.toNat a) s.ft.pendAsh).getD s.ft.ash) ∧
      (2 * (Option.map (fun a => BitVec.toNat a) s.ft.pendAsh).getD s.ft.ash ≤ 8 * s.ft.pendPeriod.getD s.ft.period)) := by
  refine ⟨?_, ?_, ?_, ?_, ?_, ?_⟩
  all_goals decide +kernel

theorem witness_TicksAndSync :
    (let s : State := {sT with ft := {sT.ft with captured := true}, stk := [(5, {window := some 3})]};
      let k : StokerNo := 5; let e : BitVec 5 := 0; let x : Slot := {e := 0, ctx := 3, o := 9, b := 0}; (up s = true) ∧
      (s.ft.running = true) ∧ (s.ft.stopPending = false) ∧ (s.ft.inAsh = false) ∧
      ((stk (BitVec.toNat k) s).noWindow = false) ∧ ((stk (BitVec.toNat k) s).cur = none) ∧
      (slotOf (BitVec.toNat k) (activeB (BitVec.toNat k) s) e.toNat s = some x) ∧
      ((stk (BitVec.toNat k) s).window = some x.ctx) ∧ ((ctx (16 * BitVec.toNat k + x.ctx) s).run = Run.inactive) ∧
      (s.ft.sync = Sync.locked) ∧ (s.ft.captured = true)) ∧
    (let r : Bool := true; let len : Word := 256; let x : W64 := 16000500; let s : State := sT; (up s = true) ∧
      (s.ft.running = true) ∧ (s.ft.sync = Sync.locked) ∧ (r ≠ bit (rg 0 5 s) 1) ∧ (256 ≤ BitVec.toNat len) ∧
      (s.ft.waiting = false) ∧ (s.ft.captured = false) ∧
      (inWindow s.ft.tickDtb s.ft.prevPeriod s.ft.framePeriod ↑(BitVec.toNat x) = true)) ∧
    (let r : Bool := true; let len : Word := 255; let s : State := sT; (up s = true) ∧ (s.ft.running = true) ∧
      (s.ft.sync = Sync.locked) ∧ (r = bit (rg 0 5 s) 1 ∨ BitVec.toNat len < 256)) := by
  refine ⟨?_, ?_, ?_⟩
  all_goals decide +kernel

theorem witness_GuardedWrites :
    (let k : StokerNo := 3; let tb : Bool := false; let s : State := {sB with ft := {sB.ft with running := true}};
      (up s = true) ∧ (s.ft.running = true ∨ s.ft.waiting = true ∧ s.ft.started = true) ∧ (activeB (BitVec.toNat k) s = tb) ∧
      (∀ (i : Nat), i < 4 → bit (rg (bFl i) 0 s) 15 = false)) ∧
    (let k : StokerNo := 3; let tb : Bool := false; let s : State := setRg 0x15 0 0x8000 sB; (up s = true) ∧
      (s.ft.running = false ∧ (s.ft.waiting = false ∨ s.ft.started = false) ∨ activeB (BitVec.toNat k) s ≠ tb) ∧ (∃ i, i < 4 ∧
      bit (rg (bFl i) 0 s) 15 = true)) := by
  refine ⟨?_, ?_⟩
  all_goals decide +kernel

theorem witness_MemoryReadAfterWrite :
    (let k : Nat := 5; let s : State := sB; (Memory.wf s.mem = true) ∧ (s.mem = []) ∧ (mget 0 k s.marks = 0)) := by
  all_goals decide +kernel

theorem witness_MemoryCommands :
    (let a : W32 := 0x10000007; let d : BitVec 2 := 3;
      let s : State := setRg 9 2 0x0500 {sT with ft := {sT.ft with inAsh := true, framesSinceTrain := 9}}; (up s = true) ∧
      (place none none (BitVec.toNat a) s = Place.mem (BitVec.toNat a)) ∧ (BitVec.toNat a < 536870912) ∧
      (mget 0 (BitVec.toNat a) s.marks = 0) ∧
      (bit (rg (sramCtl (BitVec.toNat a)).fst (sramCtl (BitVec.toNat a)).snd s) 0 = true) ∧ (s.ft.inAsh = true) ∧
      (fld (rg 9 2 s) 15 8 ≠ 0) ∧ (fld (rg 9 2 s) 15 8 ≤ s.ft.framesSinceTrain) ∧ (gdRet d.toNat s = false)) ∧
    (let a : W32 := 0x10000007;
      let s : State := setRg 0x20 0x800 1 {sT with ft := {sT.ft with inAsh := true, framesSinceTrain := 9}, marks := [(0x10000007, 1)], regs := sT.regs ++ []};
      (up s = true) ∧ (place none none (BitVec.toNat a) s = Place.mem (BitVec.toNat a)) ∧ (BitVec.toNat a < 536870912) ∧
      (mget 0 (BitVec.toNat a) s.marks = 1)) := by
  refine ⟨?_, ?_⟩
  all_goals decide +kernel

theorem witness_FifoOpcodes :
    (let sub : Sys2Proof.Sub := 0; let dg : Dreg := 14; let an : Areg := 0; let f : BitVec 2 := 1; let k : Nat := 1;
      let w : FWord := {w := 0x8000, eop := true};
      let s : State := {sY with fifos := [(1, {q := [{w := 0x8000, eop := true}, {w := 4}]})]}; let key : Nat := 0x11000100;
      (ready sub s = true) ∧
      (fifoNamed (BitVec.toNat sub) (getD (BitVec.toNat dg) (ctx (BitVec.toNat sub) s)) f.toNat false s = some k) ∧
      (fifoHead k s = some w) ∧
      (placesAt sub (bankAddrs (bare sub) (BitVec.toNat an) (BitVec.toNat (getA (BitVec.toNat an) (ctx (BitVec.toNat sub) s))) 1 (ctx (BitVec.toNat sub) s)) [key] s)) ∧
    (let sub : Sys2Proof.Sub := 0; let dg : Dreg := 14; let an : Areg := 0; let f : BitVec 2 := 1; let k : Nat := 5;
      let w : FWord := {w := 5};
      let s : State := {sY with fifos := [(8*0+1, {q := [{w := 0x8000, eop := true}, {w := 4}]})]};
      let key : Nat := 0x11000100; let v : Word := 0x1234; (ready sub s = true) ∧
      (fifoNamed (BitVec.toNat sub) (getD (BitVec.toNat dg) (ctx (BitVec.toNat sub) s)) f.toNat true s = some k) ∧
      ((fifo k s).rsvFree = 0) ∧ (inFlight k (BitVec.toNat sub) (ctx (BitVec.toNat sub) s) s < fifoFree k s) ∧
      (placesAt sub (bankAddrs (bare sub) (BitVec.toNat an) (BitVec.toNat (getA (BitVec.toNat an) (ctx (BitVec.toNat sub) s))) 1 (ctx (BitVec.toNat sub) s)) [key] s) ∧
      (loadsAt sub [key] [v] s)) ∧
    (let sub : Sys2Proof.Sub := 0; let p : PushFly := ({fifo := 5, word := 6, eop := true, odd := false} : PushFly);
      let w : FWord := {w := 5};
      let s : State := {sY with fifos := [(5, {q := [{w := 2}]})], ctx := [(0,{ctx 0 sY with pushes := [p]})]};
      let ps : List PushFly := []; (up s = true) ∧ ((ctx (BitVec.toNat sub) s).stall = Stall.none) ∧
      ((ctx (BitVec.toNat sub) s).pushes = p :: ps) ∧ (txdCut p.fifo s = false) ∧ ((fifo p.fifo s).dropping = false)) ∧
    (let sub : Sys2Proof.Sub := 0; let dn : Dreg := 1; let k : Nat := 1; let w : FWord := {w := 0x8000, eop := true};
      let s : State := {sY with ctx := [(0, {ctx 0 sY with stall := .pop {sub := 0} false 1 1, run := .stalled})], fifos := [(1, {q := [{w := 0x8000, eop := true}, {w := 4}]})]};
      (up s = true) ∧ ((ctx (BitVec.toNat sub) s).stall = Stall.pop (bare sub) false (BitVec.toNat dn) k) ∧
      ((ctx (BitVec.toNat sub) s).rep = none) ∧ ((ctx (BitVec.toNat sub) s).loops = []) ∧
      ((ctx (BitVec.toNat sub) s).step1 = false) ∧ (specOf (BitVec.toNat sub) s = none) ∧
      (List.find? (fun kv => kv.fst == BitVec.toNat sub) s.loads = none) ∧ (fifoHead k s = some w)) ∧
    (let sub : Sys2Proof.Sub := 0; let dg : Dreg := 14; let f : BitVec 2 := 1; let k : Nat := 1; let s : State := sY;
      (ready sub s = true) ∧
      (fifoNamed (BitVec.toNat sub) (getD (BitVec.toNat dg) (ctx (BitVec.toNat sub) s)) f.toNat false s = some k) ∧
      (fifoHead k s = none)) := by
  refine ⟨?_, ?_, ?_, ?_, ?_⟩
  all_goals first | decide +kernel | (simp only [placesAt, wordsAt, loadsAt]; decide +kernel)

theorem witness_PinOpcodes :
    (let sub : Sys2Proof.Sub := 0; let dp : Dreg := 9; let a : BitVec 2 := 1; let p : Nat := 3;
      let s : State := setRg 0xC0 0 0 sY; (ready sub s = true) ∧
      (pinNamed (BitVec.toNat sub) (getD (BitVec.toNat dp) (ctx (BitVec.toNat sub) s)) s = some p) ∧ (a ≠ 3) ∧
      ((pin p s).fq.length + (pin p s).flying.length < 32)) := by
  all_goals decide +kernel

theorem witness_PinEngines :
    (let p : DevPin := 50; let f : FifoId := .grate 3 5; let e : FqEntry := ({time := 0x8000, act := 1} : FqEntry);
      let s : State := {sB with pins := [(50, {fq := [e], pinw := [1,0], check := some true})]}; let a : BitVec 2 := 1;
      let rest : List (BitVec 2) := [0]; (up s = true) ∧ ((pin (BitVec.toNat p) s).fq = [e]) ∧ (e.tent = false) ∧
      ((pin (BitVec.toNat p) s).late = []) ∧ ((pin (BitVec.toNat p) s).lastAct = none) ∧ (s.safe.on = false) ∧
      ((pin (BitVec.toNat p) s).pinw = a :: rest) ∧ ((pin (BitVec.toNat p) s).lastBy ≤ 1) ∧
      (fifoIsLane (FifoId.idx f) = false) ∧ ((fifo (FifoId.idx f) s).q = []) ∧ ((fifo (FifoId.idx f) s).dropping = false) ∧
      ((fifo (FifoId.idx f) s).part = false)) ∧
    (let p : DevPin := 50; let x : W64 := 0x1000; let e : FqEntry := ({time := 0x8000, act := 1} : FqEntry);
      let s : State := {sB with ft := {sB.ft with dtb := 77}, pins := [(50, {flying := [e], fq := []})], fifos := [(29, {q := [{w := 1},{w :=2}], rsv := 1})]};
      let rest : List FqEntry := []; (up s = true) ∧ ((pin (BitVec.toNat p) s).flying = e :: rest) ∧ (e.tent = false) ∧
      (BitVec.toNat x + 32 ≤ e.time) ∧ ((pin (BitVec.toNat p) s).fq = [])) ∧
    (let p : DevPin := 50; let l : Bool := true; let gc : BitVec 9 := 8; let s : State := setRg (bGrt 3) (0x500 + 2) 0 sB;
      let b : BitVec 4 := 2; let v : Word := 1000; (up s = true) ∧ (l ≠ (pin (BitVec.toNat p) s).lvl) ∧
      (l ≠ (pin (BitVec.toNat p) s).dlvl) ∧ (pinFilt (BitVec.toNat p) s < gc.toNat) ∧ (pinCfg (BitVec.toNat p) s = 0) ∧
      (pinSkew (BitVec.toNat p) s = 0) ∧ ((grate (BitVec.toNat p / 16) s).hold = none) ∧
      (∀ (kr : Nat × Rule), kr ∈ s.rules → kr.snd.inForce = false) ∧
      (10 * BitVec.toNat v < 9 * vioMv b.toNat s ∨ 11 * vioMv b.toNat s < 10 * BitVec.toNat v)) ∧
    (let p : DevPin := 50; let l : Bool := true; let gc : BitVec 9 := 0; let s : State := sB; let b : BitVec 4 := 0;
      let v : Word := 3300; (up s = true) ∧ (l ≠ (pin (BitVec.toNat p) s).lvl) ∧ (gc.toNat ≤ pinFilt (BitVec.toNat p) s) ∧
      (9 * vioMv b.toNat s ≤ 10 * BitVec.toNat v) ∧ (10 * BitVec.toNat v ≤ 11 * vioMv b.toNat s)) ∧
    (let p : DevPin := 50; let a : BitVec 2 := 1; let rest : List (BitVec 2) := [0];
      let s : State := {sB with ft := {sB.ft with dtb := 77}, pins := [(50, {pinw := [1,0], lastBy := 2, lastAct := some (16*77), check := some false})]};
      let b : Bool := false; (up s = true) ∧ ((pin (BitVec.toNat p) s).pinw = a :: rest) ∧ (s.safe.on = false) ∧
      ((pin (BitVec.toNat p) s).lastBy = 2) ∧ ((pin (BitVec.toNat p) s).lastAct = some (16 * s.ft.dtb)) ∧
      ((pin (BitVec.toNat p) s).check = some b) ∧ ((grate (BitVec.toNat p / 16) s).hold = none) ∧
      (pinForced (BitVec.toNat p) s = false) ∧ (pinRetired (BitVec.toNat p) s = false)) := by
  refine ⟨?_, ?_, ?_, ?_, ?_⟩
  all_goals decide +kernel

theorem witness_SequencerControls :
    (let src : Src := .stoker 5; let g : GrateNo := 3; let o : BitVec 10 := 0x3FE; let v : Word := 0x14;
      let s : State := sB; (up s = true) ∧ ((grate (BitVec.toNat g) s).run = false) ∧ (booted s = true) ∧
      (o.toNat % 4 ≠ 3) ∧ (List.find? (fun kv => kv.fst == stageKey src (ra (bGrt (BitVec.toNat g)) 774)) s.staged = none) ∧
      (rg (bGrt (BitVec.toNat g)) 774 s = 0) ∧ (20 ≤ BitVec.toNat v)) ∧
    (let g : GrateNo := 3; let s : State := modGrate 3 (fun _ => {run := true, tgt := some 4}) sB; (up s = true) ∧
      ((grate (BitVec.toNat g) s).run = true) ∧ ((grate (BitVec.toNat g) s).kPend = []) ∧
      (∀ (p : BitVec 4) (fr : List Bool) (t bt : Nat) (e : Option Samp), (grate (BitVec.toNat g) s).hold ≠ some (Hold.cho p fr t bt e))) := by
  refine ⟨?_, ?_, ?_, ?_, fun p fr t bt e h => ?_⟩
  case refine_5 => exact nomatch (show (none : Option Hold) = some _ from h)
  all_goals decide +kernel

theorem witness_MicroArithmetic :
    (let g : GrateNo := 3; let s : State := m 0 {}; (reaches g 0 { } s = true)) ∧
    (let g : GrateNo := 3; let ka : BitVec 3 := 1; let s : State := m 4 {ka := 1}; (reaches g 4 { ka := ka } s = true)) ∧
    (let g : GrateNo := 3; let ka : BitVec 3 := 1; let imm : Word := 0xFFFF; let s : State := m 8 {ka := 1, imm := 0xFFFF};
      (reaches g 8 { ka := ka, imm := imm } s = true)) ∧
    (let g : GrateNo := 3; let ka : BitVec 3 := 1; let kb : BitVec 3 := 7; let s : State := m 9 {ka := 1, kb := 7};
      (reaches g 9 { ka := ka, kb := kb } s = true)) ∧
    (let g : GrateNo := 3; let ka : BitVec 3 := 1; let imm : Word := 0xFFFF;
      let s : State := m 0xA {ka := 1, imm := 0xFFFF}; (reaches g 10 { ka := ka, imm := imm } s = true)) ∧
    (let g : GrateNo := 3; let ka : BitVec 3 := 1; let imm : Word := 0xFFFF;
      let s : State := m 0xB {ka := 1, imm := 0xFFFF}; (reaches g 11 { ka := ka, imm := imm } s = true)) ∧
    (let g : GrateNo := 3; let ka : BitVec 3 := 1; let imm : Word := 0xFFFF;
      let s : State := m 0xC {ka := 1, imm := 0xFFFF}; (reaches g 12 { ka := ka, imm := imm } s = true)) ∧
    (let g : GrateNo := 3; let ka : BitVec 3 := 1; let imm : Word := 0xFFFF;
      let s : State := m 0xD {ka := 1, imm := 0xFFFF}; (reaches g 13 { ka := ka, imm := imm } s = true)) ∧
    (let g : GrateNo := 3; let ka : BitVec 3 := 1; let imm : Word := 0xFFFF;
      let s : State := m 0xE {ka := 1, imm := 0xFFFF}; (reaches g 14 { ka := ka, imm := imm } s = true)) ∧
    (let g : GrateNo := 3; let ka : BitVec 3 := 1; let imm : Word := 0x800F;
      let s : State := m 0xF {ka := 1, imm := 0x800F}; (reaches g 15 { ka := ka, imm := imm } s = true) ∧
      (imm &&& 32752 = 0)) ∧
    (let g : GrateNo := 3; let imm : Word := 0x00FE; let s : State := m 0x1F {imm := 0x00FE};
      (reaches g 31 { imm := imm } s = true) ∧ (imm &&& 65281 = 0)) ∧
    (let g : GrateNo := 3; let ka : BitVec 3 := 1; let imm : Word := 2; let s : State := m 0x1C {ka := 1, imm := 2};
      (reaches g 28 { ka := ka, imm := imm } s = true) ∧ (BitVec.toNat imm < 3)) := by
  refine ⟨?_, ?_, ?_, ?_, ?_, ?_, ?_, ?_, ?_, ?_, ?_, ?_⟩
  all_goals decide +kernel

theorem witness_MicroControl :
    (let g : GrateNo := 3; let s : State := sq 0x18 {} {stack := [9,8]} sK2; let a : Byte := 9; let r : List Byte := [8];
      (reaches g 24 { } s = true) ∧ ((grate (BitVec.toNat g) s).stack = a :: r)) ∧
    (let g : GrateNo := 3; let ka : BitVec 3 := 0; let tgt : Byte := 0x33;
      let s : State := sq 0x19 {ka := ka, t := tgt} {} sK2; (reaches g 25 { ka := ka, t := tgt } s = true)) ∧
    (let g : GrateNo := 3; let imm : Word := 2; let s : State := sq 5 {imm := imm} {} sK2; (imm ≠ 0) ∧
      (reaches g 5 { imm := imm } s = true)) ∧
    (let g : GrateNo := 3; let kb : BitVec 3 := 2; let imm : Word := 2; let p : BitVec 4 := 5;
      let s : State := sq 6 {p := p, kb := kb, imm := imm} {} sK2; (kb.toNat < 3) ∧
      (reaches g 6 { p := p, kb := kb, imm := imm } s = true)) ∧
    (let g : GrateNo := 3; let ka : BitVec 3 := 0; let kb : BitVec 3 := 2; let imm : Word := 2;
      let s : State := sq 7 {ka := ka, kb := kb, imm := imm} {flags := 0x20} sK2;
      (reaches g 7 { ka := ka, kb := kb, imm := imm } s = true)) ∧
    (let g : GrateNo := 3; let s : State := sq 0x1e {} {} sK2; (reaches g 30 { } s = true)) ∧
    (let g : GrateNo := 3; let s : State := sq 0x20 {} {} sK2; (reaches g 32 { } s = true)) ∧
    (let g : GrateNo := 3; let tgt : Byte := 0x33; let p : BitVec 4 := 0; let cc : BitVec 4 := 0;
      let s : State := sq 0x16 {p := p, cc := 0, t := tgt} {flags := 0x55, stack := [1,2,3]} sK2; (cc ≠ 15) ∧
      (cc ≠ 12 → cc ≠ 13 → p = 0) ∧ (reaches g 22 { p := p, cc := cc, t := tgt } s = true)) ∧
    (let g : GrateNo := 3; let tgt : Byte := 0x33; let p : BitVec 4 := 0; let cc : BitVec 4 := 0;
      let s : State := sq 0x17 {p := p, cc := 0, t := tgt} {flags := 0x55, stack := [1,2,3]} sK2; (cc ≠ 15) ∧
      (cc ≠ 12 → cc ≠ 13 → p = 0) ∧ (reaches g 23 { p := p, cc := cc, t := tgt } s = true) ∧
      ((grate (BitVec.toNat g) s).stack.length < 4)) ∧
    (let g : GrateNo := 3; let s : State := modGrate 3 (fun _ => {run := true, hold := some .wait}) sK; (up s = true) ∧
      ((grate (BitVec.toNat g) s).kPend = []) ∧ ((grate (BitVec.toNat g) s).hold = some Hold.wait)) ∧
    (let g : GrateNo := 3; let u : Micro := {}; let s : State := sq 0x3F {} {} sK; (up s = true) ∧
      ((grate (BitVec.toNat g) s).run = true) ∧ ((grate (BitVec.toNat g) s).hold = none) ∧
      ((grate (BitVec.toNat g) s).tgt = none) ∧ (u.parityOk = true) ∧
      (32 < (microAt (BitVec.toNat g) (grate (BitVec.toNat g) s).npc s).toNat / 2 ^ 42)) ∧
    (let g : GrateNo := 3; let imm : Word := 2; let u : Micro := {imm := 4}; let s : State := sq 0 {imm := 4} {} sK;
      (up s = true) ∧ ((grate (BitVec.toNat g) s).run = true) ∧ ((grate (BitVec.toNat g) s).hold = none) ∧
      ((grate (BitVec.toNat g) s).tgt = none) ∧ (u.parityOk = true) ∧
      (microAt (BitVec.toNat g) (grate (BitVec.toNat g) s).npc s = microBits 0 u) ∧
      (namesOk { } u = false ∨ (true : Bool) = false)) ∧
    (let g : GrateNo := 3; let u : Micro := {parityOk := false}; let s : State := sq 0 {} {} sK; (up s = true) ∧
      ((grate (BitVec.toNat g) s).run = true) ∧ ((grate (BitVec.toNat g) s).hold = none) ∧
      ((grate (BitVec.toNat g) s).tgt = none) ∧ (u.parityOk = false) ∧
      (microAt (BitVec.toNat g) (grate (BitVec.toNat g) s).npc s = microBits 0 u)) ∧
    (let g : GrateNo := 3; let p : BitVec 4 := 5; let kb : BitVec 3 := 2; let lim : Bool := true; let met : Bool := true;
      let s : State := modGrate 3 (fun _ => {run := true, hold := some (.wedge p kb lim met)}) sK; (up s = true) ∧
      ((grate (BitVec.toNat g) s).kPend = []) ∧ ((grate (BitVec.toNat g) s).hold = some (Hold.wedge p kb lim met)) ∧
      (met = true)) ∧
    (let g : GrateNo := 3; let p : BitVec 4 := 5; let kb : BitVec 3 := 2; let lim : Bool := true; let met : Bool := false;
      let s : State := modGrate 3 (fun _ => {run := true, hold := some (.wedge p kb lim met)}) sK; (up s = true) ∧
      ((grate (BitVec.toNat g) s).kPend = []) ∧ ((grate (BitVec.toNat g) s).hold = some (Hold.wedge p kb lim met)) ∧
      (met = false) ∧ (lim = true)) ∧
    (let g : GrateNo := 3; let mask : Word := 4; let val : Word := 0; let lim : Bool := true; let met : Bool := false;
      let s : State := modGrate 3 (fun _ => {run := true, hold := some (.wlvl mask val lim met)}) sK; (up s = true) ∧
      ((grate (BitVec.toNat g) s).kPend = []) ∧ ((grate (BitVec.toNat g) s).hold = some (Hold.wlvl mask val lim met)) ∧
      (met = true ∨ seqLevels (BitVec.toNat g) s &&& mask = val)) ∧
    (let g : GrateNo := 3; let mask : Word := 4; let val : Word := 4; let lim : Bool := true; let met : Bool := false;
      let s : State := modGrate 3 (fun _ => {run := true, hold := some (.wlvl mask val lim met)}) sK; (up s = true) ∧
      ((grate (BitVec.toNat g) s).kPend = []) ∧ ((grate (BitVec.toNat g) s).hold = some (Hold.wlvl mask val lim met)) ∧
      (met = false) ∧ (seqLevels (BitVec.toNat g) s &&& mask ≠ val) ∧ (lim = true)) ∧
    (let g : GrateNo := 3; let q : BitVec 4 := 5; let a : BitVec 2 := 1; let c : Nat := 0x9000;
      let s : State := modGrate 3 (fun _ => {run := true, hold := some (.fqw q a c)}) sK; (up s = true) ∧
      ((grate (BitVec.toNat g) s).kPend = []) ∧ ((grate (BitVec.toNat g) s).hold = some (Hold.fqw q a c)) ∧
      ((pin (16 * BitVec.toNat g + q.toNat) s).fq.length + (pin (16 * BitVec.toNat g + q.toNat) s).flying.length < 32)) ∧
    (let g : GrateNo := 3; let c : Byte := 9; let i : Nat := 7; let w : Word := 9;
      let s : State := modGrate 3 (fun _ => {run := true, hold := some .wait, kPend := [(i, w)]}) sK; (up s = true) ∧
      (c ≠ (grate (BitVec.toNat g) s).pc) ∧ ((grate (BitVec.toNat g) s).hold = some Hold.wait) ∧
      ((grate (BitVec.toNat g) s).kPend = [(i, w)]) ∧ (i < 8)) := by
  refine ⟨?_, ?_, ?_, ?_, ?_, ?_, ?_, ?_, ?_, ?_, ?_, ?_, ?_, ?_, ?_, ?_, ?_, ?_, ?_⟩
  all_goals decide +kernel

theorem witness_MicroPins :
    (let g : GrateNo := 3; let p : BitVec 4 := 0; let imm : Word := 0; let s : State := sq 1 {p := p, imm := imm} {} (sK);
      (reaches g 1 { p := p, imm := imm } s = true) ∧ (BitVec.toNat imm < 3)) ∧
    (let g : GrateNo := 3; let p : BitVec 4 := 0; let imm : Word := 0;
      let s : State := sq 1 {p := p, imm := imm+16} {} (setRg (bGrt 3) 0x10 0x40 sK); (p.toNat < 4) ∧
      (BitVec.toNat imm < 2) ∧ (reaches g 1 { p := p, imm := imm + 16 } s = true) ∧
      (bit (pinCfg (16 * BitVec.toNat g) s) 6 = true)) ∧
    (let g : GrateNo := 3; let ka : BitVec 3 := 2; let imm : Word := 0;
      let s : State := sq 2 {ka := ka, imm := imm} {} (sK); (reaches g 2 { ka := ka, imm := imm } s = true)) ∧
    (let g : GrateNo := 3; let ka : BitVec 3 := 2; let imm : Word := 0;
      let s : State := sq 3 {ka := ka, imm := imm} {} (sK); (reaches g 3 { ka := ka, imm := imm } s = true)) ∧
    (let g : GrateNo := 3; let ka : BitVec 3 := 2; let p : BitVec 4 := 0; let s : State := sq 16 {p := p, ka := ka} {} (sK);
      (p.toNat < 4) ∧ (fifoHead (8 * BitVec.toNat g + 4 + p.toNat) s = none) ∧
      (reaches g 16 { p := p, ka := ka } s = true) ∧ ((fifo (8 * BitVec.toNat g + 4 + p.toNat) s).mid = false)) ∧
    (let g : GrateNo := 3; let ka : BitVec 3 := 2; let p : BitVec 4 := 0; let imm : Word := 0;
      let s : State := sq 16 {p := p, ka := ka, imm := 1} {} (sK); (p.toNat < 4) ∧
      (fifoHead (8 * BitVec.toNat g + 4 + p.toNat) s = none) ∧ (reaches g 16 { p := p, ka := ka, imm := 1 } s = true)) ∧
    (let g : GrateNo := 3; let ka : BitVec 3 := 2; let p : BitVec 4 := 0; let imm : Word := 0;
      let s : State := sq 17 {p := p, ka := ka, imm := imm} {} (sK); (p.toNat < 4) ∧ (BitVec.toNat imm < 4) ∧
      (reaches g 17 { p := p, ka := ka, imm := imm } s = true) ∧
      ((fifo (8 * BitVec.toNat g + p.toNat) s).dropping = false) ∧ (fifoFree (8 * BitVec.toNat g + p.toNat) s ≠ 0)) ∧
    (let g : GrateNo := 3; let ka : BitVec 3 := 2; let p : BitVec 4 := 0; let imm : Word := 0;
      let s : State := sq 18 {p := p, ka := ka, imm := imm} {} (sK); (BitVec.toNat imm < 2) ∧
      (reaches g 18 { p := p, ka := ka, imm := imm } s = true)) ∧
    (let g : GrateNo := 3; let ka : BitVec 3 := 2; let p : BitVec 4 := 0; let imm : Word := 0;
      let s : State := sq 19 {p := p, ka := ka, imm := imm} {} (sK);
      (reaches g 19 { p := p, ka := ka, imm := imm } s = true)) ∧
    (let g : GrateNo := 3; let ka : BitVec 3 := 2; let p : BitVec 4 := 0; let imm : Word := 0;
      let s : State := sq 20 {p := p, ka := ka, imm := imm} {} (sK); (BitVec.toNat imm < 16) ∧
      (reaches g 20 { p := p, ka := ka, imm := imm } s = true)) ∧
    (let g : GrateNo := 3; let ka : BitVec 3 := 2; let p : BitVec 4 := 0; let imm : Word := 0;
      let s : State := sq 21 {p := p, ka := ka, imm := imm} {} (sK); (BitVec.toNat imm < 16) ∧
      (reaches g 21 { p := p, ka := ka, imm := imm } s = true)) ∧
    (let g : GrateNo := 3; let ka : BitVec 3 := 2; let p : BitVec 4 := 0; let imm : Word := 0;
      let s : State := sq 29 {p := p, ka := ka, imm := imm} {} (sK); (BitVec.toNat imm < 3) ∧
      (reaches g 29 { p := p, ka := ka, imm := imm } s = true) ∧
      ((pin (16 * BitVec.toNat g + p.toNat) s).fq.length + (pin (16 * BitVec.toNat g + p.toNat) s).flying.length < 32)) ∧
    (let g : GrateNo := 3; let ka : BitVec 3 := 2; let imm : Word := 0;
      let s : State := sq 26 {ka := ka, imm := imm} {tgt := some 7} (sK); let sub : Nat := 7;
      (reaches g 26 { ka := ka, imm := imm } s = true) ∧ (BitVec.toNat imm < 512) ∧
      ((grate (BitVec.toNat g) s).tgt = some sub) ∧ ((grate (BitVec.toNat g) s).tgtOver = false)) ∧
    (let g : GrateNo := 3; let imm : Word := 0; let s : State := sq 27 {imm := imm} {} (sK); (BitVec.toNat imm < 4) ∧
      (reaches g 27 { imm := imm } s = true)) ∧
    (let g : GrateNo := 3; let ka : BitVec 3 := 4; let p : BitVec 4 := 1;
      let s : State := sq 16 {p := p, ka := ka} {} (sK2); let x : FWord := {w := 0x77, eop := true}; (p.toNat < 4) ∧
      (reaches g 16 { p := p, ka := ka } s = true) ∧ (fifoHead (8 * BitVec.toNat g + 4 + p.toNat) s = some x)) ∧
    (let g : GrateNo := 3; let ka : BitVec 3 := 3; let p : BitVec 4 := 2; let imm : Word := 2;
      let s : State := sq 29 {p := p, ka := ka, imm := imm} {} (sK2); (BitVec.toNat imm < 3) ∧
      (reaches g 29 { p := p, ka := ka, imm := imm } s = true) ∧
      (32 ≤ (pin (16 * BitVec.toNat g + p.toNat) s).fq.length + (pin (16 * BitVec.toNat g + p.toNat) s).flying.length)) := by
  refine ⟨?_, ?_, ?_, ?_, ?_, ?_, ?_, ?_, ?_, ?_, ?_, ?_, ?_, ?_, ?_, ?_⟩
  all_goals decide +kernel

theorem witness_DamperRules :
    (let r : RuleNo := 4; let v : Word := 0x0123; let s : State := sB; (up s = true) ∧ (dmpLocked s = false) ∧
      (fld v 11 10 ≠ 3) ∧ (bit (ruleW (BitVec.toNat r) 0 s) 15 = false) ∧ ((rule (BitVec.toNat r) s).inForce = false)) ∧
    (let r : RuleNo := 4; let v : Word := 0x0C00; let s : State := sB; (up s = true) ∧ (dmpLocked s = false) ∧
      (armBad [v ||| 32768, ruleW (BitVec.toNat r) 1 s, ruleW (BitVec.toNat r) 2 s] = true)) ∧
    (let r : RuleNo := 4; let v : Word := 0x0123;
      let s : State := setRg 0xA (0x1000 + 64) 0x8000 {sB with rules := [(4, {inForce := true, w := [0x8000,0,0,0,0]})]};
      (up s = true) ∧ (dmpLocked s = false) ∧ (fld v 11 10 ≠ 3) ∧ (bit (ruleW (BitVec.toNat r) 0 s) 15 = true) ∧
      (ruleHeld (rule (BitVec.toNat r) s) = false)) ∧
    (let r : RuleNo := 4; let v : Word := 0x0123;
      let s : State := setRg 0xA (0x1000 + 64) 0xC000 {sB with rules := [(4, {inForce := true, tripped := true, w := [0xC000,0,0,0,0]})]};
      (up s = true) ∧ (dmpLocked s = false) ∧
      (armBad [v ||| 32768, ruleW (BitVec.toNat r) 1 s, ruleW (BitVec.toNat r) 2 s] = false) ∧ (fld v 11 10 ≠ 3) ∧
      (bit (ruleW (BitVec.toNat r) 0 s) 15 = true) ∧ (ruleHeld (rule (BitVec.toNat r) s) = true) ∧
      (levelCond (rule (BitVec.toNat r) s).w s = true) ∧
      ((rule (BitVec.toNat r) s).inForce = true ∨ bit (ruleW (BitVec.toNat r) 0 s) 15 = true)) ∧
    (let s : State := setRg 0xA 0 1 sB; (up s = true) ∧ (dmpLocked s = true)) ∧
    (let r : RuleNo := 4; let s : State := {sB with rules := [(4, {changed := true})]}; (up s = true) ∧
      ((rule (BitVec.toNat r) s).changed = true) ∧ (bit (ruleW (BitVec.toNat r) 0 s) 15 = false)) ∧
    (let r : RuleNo := 4; let s : State := setRg 0xA (0x1000 + 64) 0x8020 {sB with rules := [(4, {changed := true})]};
      (up s = true) ∧ ((rule (BitVec.toNat r) s).changed = true) ∧ (bit (ruleW (BitVec.toNat r) 0 s) 15 = true) ∧
      (levelCond (List.map (fun j => ruleW (BitVec.toNat r) j s) (span 0 5)) s = true) ∧
      ((rule (BitVec.toNat r) s).tripped = false) ∧
      (fld (nth (List.map (fun j => ruleW (BitVec.toNat r) j s) (span 0 5)) 0) 11 10 = 0)) ∧
    (let r : RuleNo := 4; let t : Nat := 77;
      let s : State := setRg 0xA (0x1000 + 64) 0x8080 {sB with rules := [(4, {inForce := true, seen := some 77, w := [0x8080,0,0,0,0]})]};
      (up s = true) ∧ ((rule (BitVec.toNat r) s).inForce = true) ∧ ((rule (BitVec.toNat r) s).seen = some t) ∧
      ((rule (BitVec.toNat r) s).fell = false) ∧ ((rule (BitVec.toNat r) s).tripped = false) ∧ (s.safe.on = false) ∧
      (fld (nth (rule (BitVec.toNat r) s).w 0) 11 10 ≠ 3)) ∧
    (let r : RuleNo := 4;
      let s : State := {sB with rules := [(4, {inForce := true, tripped := true, fell := true, w := [0xC000,0,0,0,0]})]};
      (up s = true) ∧ ((rule (BitVec.toNat r) s).fell = true)) ∧
    (let r : RuleNo := 4;
      let s : State := {sB with rules := [(4, {inForce := true, tripped := true, relReq := true, w := [0xC000,0x4000,0,0,0]})]};
      (up s = true) ∧ (ruleHeld (rule (BitVec.toNat r) s) = true) ∧ (levelCond (rule (BitVec.toNat r) s).w s = false) ∧
      ((rule (BitVec.toNat r) s).seen = none) ∧ ((rule (BitVec.toNat r) s).relReq = true)) ∧
    (let r : RuleNo := 4;
      let s : State := setRg 0xA (0x1000 + 64 + 1) 0x4000 (setRg 0xA (0x1000 + 64) 0x8000 {sB with rules := [(4, {changed := true})]});
      (up s = true) ∧ ((rule (BitVec.toNat r) s).changed = true) ∧ (bit (ruleW (BitVec.toNat r) 0 s) 15 = true) ∧
      (levelCond (List.map (fun j => ruleW (BitVec.toNat r) j s) (span 0 5)) s = false)) := by
  refine ⟨?_, ?_, ?_, ?_, ?_, ?_, ?_, ?_, ?_, ?_, ?_⟩
  all_goals decide +kernel

theorem witness_SafeState :
    (let s : State := {sB with grates := [(3,{run := true})], pins := [(7, {fq := [{time := 1, act := 0}]})]};
      (up s = true) ∧ (s.safe.on = false)) ∧
    (let s : State := {sB with safe := {on := true, cause := 4}}; (up s = true) ∧ (s.safe.on = true) ∧
      (s.pwr.safeN = true) ∧ (s.pwr.tbLost = false) ∧ (safeRuleOn s = false) ∧ (s.sch = []) ∧ (s.chans = []) ∧
      (s.stk = []) ∧ (s.fc.soot = [])) := by
  refine ⟨?_, ?_⟩
  all_goals decide +kernel

theorem witness_ChannelOperations :
    (let sub : Sys2Proof.Sub := 0; let addr : W32 := 0x10000008; let path : BitVec 2 := 1; let s : State := sPath;
      (up s = true) ∧ ((sch (BitVec.toNat sub) s).fwd = false) ∧ ((sch (BitVec.toNat sub) s).st = SchSt.idle) ∧
      (BitVec.toNat addr % 8 = 0) ∧ (ctlOk (BitVec.toNat sub) (BitVec.toNat addr) s = true) ∧
      (anyPath (BitVec.toNat sub) s = true → (lowPath (BitVec.toNat sub) s).isSome = true) ∧
      ((sch (BitVec.toNat sub) s).st = SchSt.idle ∨ (sch (BitVec.toNat sub) s).st = SchSt.statusPending) ∧
      ((sch (BitVec.toNat sub) s).st ≠ SchSt.retired) ∧ (pathUp (BitVec.toNat sub) path.toNat s = true) ∧
      (path ≠ (sch (BitVec.toNat sub) s).curPath) ∧ (∃ m, m < 4 ∧ m ≠ path.toNat ∧ pathUp (BitVec.toNat sub) m s = true) ∧
      (pathValid (BitVec.toNat sub) path.toNat s = true)) ∧
    (let sub : Sys2Proof.Sub := 0; let s : State := withSt {st := .startPending, ccw := 0x10, attn := true}; (up s = true) ∧
      ((sch (BitVec.toNat sub) s).fwd = false) ∧ ((sch (BitVec.toNat sub) s).st = SchSt.startPending) ∧
      ((sch (BitVec.toNat sub) s).pfReq = false) ∧
      ((sch (BitVec.toNat sub) s).st = SchSt.startPending ∨ (sch (BitVec.toNat sub) s).st = SchSt.active)) ∧
    (let sub : Nat := 0; let s : State := withSt {st := .startPending, ccw := 0x10, attn := true};
      ((sch sub s).fwd = false) ∧
      ((sch sub s).st = SchSt.startPending ∨ (sch sub s).st = SchSt.active ∨ (sch sub s).st = SchSt.suspended ∨ (sch sub s).st = SchSt.halted)) ∧
    (let sub : Sys2Proof.Sub := 0; let addr : W32 := 0x10000008; let s : State := withSt {st := .suspended, ccw := 0x10};
      (up s = true) ∧ ((sch (BitVec.toNat sub) s).fwd = false) ∧ ((sch (BitVec.toNat sub) s).st = SchSt.suspended) ∧
      (BitVec.toNat addr % 8 = 0) ∧ (ctlOk (BitVec.toNat sub) (BitVec.toNat addr) s = true)) ∧
    (let sub : Nat := 0; let s : State := withSt {st := .statusPending, held := []}; let op : Nat := 1;
      ((sch sub s).fwd = false) ∧ ((sch sub s).st = SchSt.statusPending) ∧ (op = 1 ∨ op = 2 ∨ op = 4)) ∧
    (let sub : Nat := 0; let s : State := withSt {st := .retired}; let op : Nat := 3; ((sch sub s).fwd = false) ∧
      ((sch sub s).st = SchSt.retired) ∧ (op = 1 ∨ op = 2 ∨ op = 3 ∨ op = 4 ∨ op = 5 ∨ op = 7)) ∧
    (let sub : Nat := 0; let addr : Nat := 0x10000008; let s : State := setRg 0x100 0x608 0x8000 sB;
      ((sch sub s).fwd = false) ∧ ((sch sub s).st = SchSt.idle) ∧ (addr % 8 = 0) ∧ (ctlOk sub addr s = true) ∧
      (anyPath sub s = true) ∧ (lowPath sub s = none)) ∧
    (let sub : Nat := 0; let addr : Nat := 0x1000000C; let s : State := sPath; ((sch sub s).fwd = false) ∧
      ((sch sub s).st = SchSt.idle) ∧ (addr % 8 ≠ 0)) := by
  refine ⟨?_, ?_, ?_, ?_, ?_, ?_, ?_, ?_⟩
  all_goals decide +kernel

theorem witness_ChannelSteps :
    (let sub : Sys2Proof.Sub := 0; let v : Word := 6;
      let s : State := {setRg 0x100 0x606 3 sY with sch := [(0, {st := .active, phase := .proc, tmoTicks := 7, curCnt := 33, ccw := 0x44})]};
      (up s = true) ∧ ((sch (BitVec.toNat sub) s).st = SchSt.active) ∧ ((sch (BitVec.toNat sub) s).pfReq = false) ∧
      (specOf (BitVec.toNat sub) s = none) ∧ (fld (schCfg (BitVec.toNat sub) 6 s) 7 0 ≠ 0) ∧
      (fld (schCfg (BitVec.toNat sub) 6 s) 7 0 < (sch (BitVec.toNat sub) s).tmoTicks) ∧
      ((sch (BitVec.toNat sub) s).phase = Phase.proc) ∧ (v ≠ 0)) ∧
    (let sub : Sys2Proof.Sub := 0; let st : Status := ({dstat := 3} : Status);
      let s : State := {cqOn sY with sch := [(0, {st := .statusPending, held := [({dstat := 3} : Status)], late := true, hseq := 4})]};
      let more : List Status := []; let rest : List Waiter := [.sub 4]; (up s = true) ∧
      ((sch (BitVec.toNat sub) s).held = st :: more) ∧ ((cq st.cq s).waiting = Waiter.sub (BitVec.toNat sub) :: rest) ∧
      (cqRoom st.cq s = true)) ∧
    (let sub : Sys2Proof.Sub := 0; let f : FetchInfo := ({addr := 0x100} : FetchInfo);
      let s : State := {sY with sch := [(0, {st := .active, phase := .fetch f})]}; let ks : List Nat := (span 0x11000100 8);
      let ws : List Word := [0x1234,0,0,0,0,0,0,0]; (up s = true) ∧ ((sch (BitVec.toNat sub) s).phase = Phase.fetch f) ∧
      (placesAt sub (List.map (fun a => a % 2 ^ 32) (span (BitVec.toNat f.addr) 8)) ks s) ∧ (wordsAt ks ws s)) ∧
    (let sub : Sys2Proof.Sub := 0; let s : State := {sY with sch := [(0, {st := .active, phase := .timed, tc := 5555})]};
      (up s = true) ∧ ((sch (BitVec.toNat sub) s).phase = Phase.timed)) := by
  refine ⟨?_, ?_, ?_, ?_⟩
  all_goals first | decide +kernel | (simp only [placesAt, wordsAt, loadsAt]; decide +kernel)

theorem witness_ChainingDecision :
    (let d : Byte := 0x81; let c : Word := 3; (c ≠ 0) ∧ (bit d 2 = false) ∧ (bit d 3 = false) ∧ (bit d 4 = false) ∧
      (bit d 0 = bit d 7)) ∧
    (let sub : Nat := 5; let d : Byte := 0x06; let s : State := setRg 0x100 (0x605 + 0xA0) 3 (chS 0x1003 {retries := 1});
      (bit d 2 = true) ∧ (bit d 1 = true) ∧ ((sch sub s).retries < fld (schCfg sub 5 s) 3 0)) ∧
    (let sub : Nat := 5; let d : Byte := 0x04; let s : State := chS 0x1001 {lastResid := 0};
      (bit d 2 = true ∧ (bit d 1 = false ∨ fld (schCfg sub 5 s) 3 0 ≤ (sch sub s).retries) ∨ bit d 2 = false ∧ (bit d 3 = true ∨ bit d 4 = true))) ∧
    (let d : Byte := 1; (bit d 2 = false) ∧ (bit d 3 = false) ∧ (bit d 4 = false) ∧ (bit d 0 = true) ∧ (bit d 7 = false)) ∧
    (let sub : Nat := 5; let d : Byte := 0x80; let s : State := chS 0x1001 {lastResid := 3}; (bit d 2 = false) ∧
      (bit d 3 = false) ∧ (bit d 4 = false) ∧ (bit d 0 = false) ∧ (bit d 7 = true) ∧ ((sch sub s).lastResid ≠ 0) ∧
      (wFlag (sch sub s).words 2 = false) ∧ ((sch sub s).lateEnd = false)) ∧
    (let sub : Nat := 5; let d : Byte := 0xC0; let s : State := chS 0x0001 {lastResid := 0}; (bit d 2 = false) ∧
      (bit d 3 = false) ∧ (bit d 4 = false) ∧ (bit d 0 = false) ∧ (bit d 7 = true) ∧
      ((sch sub s).lastResid = 0 ∨ wFlag (sch sub s).words 2 = true ∨ (sch sub s).lateEnd = true) ∧
      (wFlag (sch sub s).words 1 = false) ∧ (wFlag (sch sub s).words 0 = true) ∧ (wProc (sch sub s).words = false)) ∧
    (let sub : Nat := 5; let d : Byte := 0xC0; let s : State := chS 0x1003 {}; (bit d 2 = false) ∧ (bit d 3 = false) ∧
      (bit d 4 = false) ∧ (bit d 0 = false) ∧ (bit d 7 = true) ∧
      ((sch sub s).lastResid = 0 ∨ wFlag (sch sub s).words 2 = true ∨ (sch sub s).lateEnd = true) ∧
      (wFlag (sch sub s).words 1 = true ∨ wFlag (sch sub s).words 0 = false)) ∧
    (let sub : Nat := 5; let d : Byte := 0xC0; let s : State := w17_chS 0x2101 {}; (bit d 2 = false) ∧ (bit d 3 = false) ∧
      (bit d 4 = false) ∧ (bit d 0 = false) ∧ (bit d 7 = true) ∧
      ((sch sub s).lastResid = 0 ∨ wFlag (sch sub s).words 2 = true ∨ (sch sub s).lateEnd = true) ∧
      (wFlag (sch sub s).words 1 = false) ∧ (wFlag (sch sub s).words 0 = true) ∧ (wProc (sch sub s).words = true)) := by
  refine ⟨?_, ?_, ?_, ?_, ?_, ?_, ?_, ?_⟩
  all_goals decide +kernel

theorem witness_CcwChecksAndCursor :
    (let ws : List Word := [0x1002,0,0,0,0,0,0,0]; let tic : Bool := true; let listOk : Bool := true;
      let tableOk : Bool := true; let ent : Word × Word := (0xB000,0x0); let sub : Nat := 4;
      let s : State := {sB with sch := [(4, {words := [0x1000,9,0,0,0,0,0,0], curCnt := 9, curOdd := true, curAddr := 0xFFFFFFFE})]};
      (progCheck ws false tic listOk tableOk ent = none) ∧ (16 ≤ wCode ws) ∧ (wCount ws = 0) ∧ (wFlag ws 1 = true) ∧
      (wAmode (sch sub s).words = 0)) ∧
    (let ws : List Word := [0,0,0,0,0,0,0,0]; let sub : Nat := 4;
      let s : State := {sB with sch := [(4, {words := [0x1000,9,0,0,0x4000,0,0,0], curCnt := 9, curOdd := true, curAddr := 0xFFFFFFFE})]};
      (wCode ws = 0) ∧ (wAmode (sch sub s).words = 1)) ∧
    (let ws : List Word := [0x0F00,0,0,0,0,0,0,0]; let sub : Nat := 4;
      let s : State := {sB with sch := [(4, {words := [0x1000,9,0,0,0x9000,0,0,0], curCnt := 9, curOdd := true, curAddr := 0xFFFFFFFE})]};
      (6 ≤ wCode ws) ∧ (wCode ws ≤ 15) ∧ (wAmode (sch sub s).words = 2)) ∧
    (let ws : List Word := [0x0100,0,0,1,0,0,0,0]; (wCode ws = 1) ∧ (wDaddr ws % 8 ≠ 0)) ∧
    (let ws : List Word := [0x0101,0,0,0,0,0,0,0]; (wCode ws = 1) ∧ (wDaddr ws % 8 = 0) ∧ (fld (nth ws 0) 7 0 ≠ 0)) ∧
    (let ws : List Word := [0x0100,0,0,0,0,0,0,0]; (wCode ws = 1) ∧ (wDaddr ws % 8 = 0) ∧ (fld (nth ws 0) 7 0 = 0)) ∧
    (let ws : List Word := [0x1003,0,0,0,0,0,0,0]; (2 ≤ wCode ws) ∧ (wCode ws ≤ 5 ∨ 16 ≤ wCode ws) ∧ (wFlag ws 1 = true) ∧
      (wFlag ws 0 = true)) ∧
    (let ws : List Word := [0x1008,5,0,0,0,0,0,0]; let tic : Bool := true; let listOk : Bool := true;
      let tableOk : Bool := true; let ent : Word × Word := (0xA000,0x1000);
      (progCheck ws false tic listOk tableOk ent = none) ∧ (16 ≤ wCode ws) ∧ (wFlag ws 3 = true)) ∧
    (let ws : List Word := [0x1010,5,0,0,0,0,0,0]; let tic : Bool := true; let listOk : Bool := true;
      let tableOk : Bool := true; let ent : Word × Word := (0xA000,0x1000);
      (progCheck ws false tic listOk tableOk ent = none) ∧ (16 ≤ wCode ws) ∧ (wFlag ws 4 = true)) ∧
    (let ws : List Word := [0x1000,5,0,0,0x9000,0,0,0]; let tic : Bool := true; let listOk : Bool := true;
      let tableOk : Bool := true; let ent : Word × Word := (0xA000,0x1000);
      (progCheck ws false tic listOk tableOk ent = none) ∧ (16 ≤ wCode ws) ∧ (wAmode ws = 2)) := by
  refine ⟨?_, ?_, ?_, ?_, ?_, ?_, ?_, ?_, ?_, ?_⟩
  all_goals decide +kernel

theorem witness_ReturnOpcodes :
    (let sub : Sys2Proof.Sub := 0; let ev : Bool := true;
      let s : State := rd [(0,0x0081),(1,5),(2,6)] {delivered := some (3,true), noSpec := true}; (ready sub s = true) ∧
      (getD 0 (ctx (BitVec.toNat sub) s) ≠ 0) ∧ (ev = false ∨ mget 0 (stkOf (BitVec.toNat sub)) s.presented = 0) ∧
      (hasProgram (sch (BitVec.toNat sub) s).st = true) ∧ ((sch (BitVec.toNat sub) s).pfReq = false)) ∧
    (let sub : Sys2Proof.Sub := 0; let s : State := {rd [] {} with presented := [(0,4)]}; (ready sub s = true) ∧
      (getD 0 (ctx (BitVec.toNat sub) s) = 0) ∧ ((sch (BitVec.toNat sub) s).delivered = none) ∧
      (mget 0 (stkOf (BitVec.toNat sub)) s.presented ≠ 0)) ∧
    (let sub : Sys2Proof.Sub := 0; let s : State := rd [] {delivered := some (3,true)}; let d : Byte := 3;
      let pf : Bool := true; (ready sub s = true) ∧ (getD 0 (ctx (BitVec.toNat sub) s) = 0) ∧
      ((sch (BitVec.toNat sub) s).delivered = some (d, pf))) := by
  refine ⟨?_, ?_, ?_⟩
  all_goals decide +kernel

theorem witness_StokerRegisters :
    (let sub : Sys2Proof.Sub := 0x35; let k : StokerNo := 3; let v : Word := 4; let a : BitVec 24 := 0x000040;
      let way : BitVec 2 := 2; let s : State := setRg 0x103 (0x301 + 20) 1 stS; let ks : List Nat := span 0x10000020 32;
      let ws : List Word := List.replicate 32 0; let n : Nat := 9; let o : BitVec 7 := 0x1C; (up s = true) ∧
      (icFind (BitVec.toNat k) a.toNat s = none) ∧ (bit (rg (bStk (BitVec.toNat k)) 2 s) way.toNat = false) ∧
      (∃ w0, codeWord (BitVec.toNat k) (a.toNat / 64 * 64) s = some w0 ∧ placeRun (some (fbxOf (BitVec.toNat k))) none w0 32 s = some ks) ∧
      (wordsAt ks ws s) ∧ (∀ (n : Nat), n ∈ ks → isSram n = true) ∧
      (lineWaits (BitVec.toNat k) (a.toNat / 64 * 64) s = []) ∧ (needsLine (BitVec.toNat k) (a.toNat / 64 * 64) s = none) ∧
      (mget 0 (stkOf (BitVec.toNat sub)) s.presented = n) ∧ (n ≠ 0) ∧
      (((stk (stkOf (BitVec.toNat sub)) s).insvc.any fun e => e.fst == BitVec.toNat v) = true) ∧
      ((ctx (BitVec.toNat sub) s).run = Run.inactive ∨ (ctx (BitVec.toNat sub) s).run = Run.stopped) ∧ (o.toNat < 29) ∧
      (bit (rg (bStk (stkOf (BitVec.toNat sub))) (769 + 4 * ctxOf (BitVec.toNat sub)) s) 0 = true) ∧
      ((ctx (BitVec.toNat sub) s).run = Run.stopped) ∧ ((sch (BitVec.toNat sub) s).phase = Phase.proc) ∧
      (stkHeld (BitVec.toNat k) s = false)) ∧
    (let sub : Sys2Proof.Sub := 0x35; let k : StokerNo := 3; let v : Word := 0x44; let s : State := stS;
      let ks : List Nat := span 0x10000020 32; let ws : List Word := List.replicate 32 0; let w0 : Nat := 0x10000020;
      let o : BitVec 7 := 0x1F; (up s = true) ∧
      (codeWord (BitVec.toNat k) (fld (rg (bStk (BitVec.toNat k)) 4 s) 7 0 * 65536 + BitVec.toNat (v &&& 65472)) s = some w0) ∧
      (placeRun (some (fbxOf (BitVec.toNat k))) none w0 32 s = some ks) ∧ (wordsAt ks ws s) ∧
      ((ctx (BitVec.toNat sub) s).run = Run.inactive ∨ (ctx (BitVec.toNat sub) s).run = Run.stopped) ∧ (o.toNat = 31) ∧
      (bit (rg (bStk (stkOf (BitVec.toNat sub))) (769 + 4 * ctxOf (BitVec.toNat sub)) s) 0 = false) ∧
      (specOf (BitVec.toNat sub) s = none) ∧ ((ctx (BitVec.toNat sub) s).stall = Stall.none)) ∧
    (let k : StokerNo := 3; let a : BitVec 24 := 0x000040; let way : BitVec 2 := 2; let m : Nat := 0x35;
      let s : State := {stS with ctx := [(0x35, {run := .longstall, stall := .code 64})]};
      let ks : List Nat := span 0x10000020 32; let ws : List Word := List.replicate 32 0; (up s = true) ∧
      (icFind (BitVec.toNat k) a.toNat s = none) ∧ (bit (rg (bStk (BitVec.toNat k)) 2 s) way.toNat = false) ∧
      (∃ w0, codeWord (BitVec.toNat k) (a.toNat / 64 * 64) s = some w0 ∧ placeRun (some (fbxOf (BitVec.toNat k))) none w0 32 s = some ks) ∧
      (wordsAt ks ws s) ∧ (∀ (n : Nat), n ∈ ks → isSram n = true) ∧ (lineWaits (BitVec.toNat k) (a.toNat / 64 * 64) s = [m])) ∧
    (let k : StokerNo := 3; let a : BitVec 24 := 0x000040; let m : Nat := 0x35;
      let s : State := {stS with stk := [(3, {cur := some 5})], ctx := [(0x35, {run := .running, pc := 0x40})]};
      (up s = true) ∧ (icFind (BitVec.toNat k) a.toNat s = none) ∧ (lineWaits (BitVec.toNat k) (a.toNat / 64 * 64) s = []) ∧
      (needsLine (BitVec.toNat k) (a.toNat / 64 * 64) s = some m)) := by
  refine ⟨?_, ?_, ?_, ?_⟩
  all_goals first | decide +kernel | (simp only [placesAt, wordsAt, loadsAt]; decide +kernel)

theorem witness_StokerFaults :
    (let sub : Sys2Proof.Sub := 0; let n : QueueNo := 3;
      let s : State := {sY with wqs := [(3, {remote := true, answer := some {}})], outst := [(3, .wq 3), (4, .wq 4)]};
      (ready sub s = true) ∧ (icFind (stkOf (BitVec.toNat sub)) (ctx (BitVec.toNat sub) s).pc.toNat s = none) ∧
      (codeWord (stkOf (BitVec.toNat sub)) (ctx (BitVec.toNat sub) s).pc.toNat s = none) ∧ (up s = true) ∧
      ((wq (BitVec.toNat n) s).remote = true)) ∧
    (let sub : Sys2Proof.Sub := 0;
      let s : State := {sY with ctx := [(0, {ctx 0 sY with pc := 0x40, posted := [{addr := [0x11000000], words := [5], pc := 0x22}]})]};
      let st : Store := ({addr := [0x11000000], words := [5], pc := 0x22} : Store); let rest : List Store := [];
      (up s = true) ∧ ((ctx (BitVec.toNat sub) s).stall = Stall.none) ∧ ((ctx (BitVec.toNat sub) s).posted = st :: rest)) ∧
    (let sub : Sys2Proof.Sub := 0;
      let s : State := {sY with sch := [(0, {st := .active, phase := .fetch {addr := 0x8888}})]};
      let f : FetchInfo := {addr := 0x8888}; (up s = true) ∧ ((sch (BitVec.toNat sub) s).phase = Phase.fetch f) ∧
      ((sch (BitVec.toNat sub) s).pfReq = false)) ∧
    (let sub : Sys2Proof.Sub := 0;
      let s : State := setRgs 0x100 0x100 [0x1000, 1] {sY with ctx := [(0, {ctx 0 sY with pc := 0x40})], mem := [(0x20000040, 0xFF)]};
      let b : Byte := 0xFF; (ready sub s = true) ∧
      (codeByte (stkOf (BitVec.toNat sub)) ((ctx (BitVec.toNat sub) s).pc.toNat % 2 ^ 24) s = (Sum.inl b, s)) ∧
      (decodeBytes sub [b] = Dec.fault 1)) ∧
    (let sub : Sys2Proof.Sub := 0; let l : Nat := 0x1234; let ks : List Nat := [0x11000000];
      let s : State := {sY with ctx := [(0, {ctx 0 sY with pc := 0x40, stall := .load, run := .stalled})], loads := [(0, {before := {pc := 0x33}, accs := [(0x1234, [0x11000000])]})]};
      let e : LoadWait := ({before := {pc := 0x33}, accs := [(0x1234, [0x11000000])]} : LoadWait); (up s = true) ∧
      ((ctx (BitVec.toNat sub) s).stall = Stall.load) ∧
      (List.find? (fun kv => kv.fst == BitVec.toNat sub) s.loads = some (BitVec.toNat sub, e)) ∧ (e.accs = [(l, ks)])) ∧
    (let n : QueueNo := 3; let s : State := sB; (up s = true) ∧ ((wq (BitVec.toNat n) s).remote = false)) := by
  refine ⟨?_, ?_, ?_, ⟨?_, rfl, ?_⟩, ?_, ?_⟩
  all_goals decide +kernel

theorem witness_BellowsCommands :
    (let sub : Sys2Proof.Sub := 0;
      let s : State := setRg 0x100 0x900 0x0057 {sB with sch := [(0,{st := .active, words := [0x1001,0,0,0,0,0,0,0], phase := .deferred, arriving := [(3,true)], look := [{addr := 8, words := [0x1001,40,0,0,0,0,0,0], entry := some (0xA800,7)}]})], stk := [(0, {cur := some 0})], ctx := [(0, {run := .inactive, r := [(3,3)]})]};
      let c : LookCcw := ({addr := 8, words := [0x1001,40,0,0,0,0,0,0], entry := some (0xA800,7)} : LookCcw);
      let rest : List LookCcw := []; let e : Word × Word := ((0xA800,7) : Word × Word); (up s = true) ∧
      ((sch (BitVec.toNat sub) s).phase = Phase.deferred) ∧ ((sch (BitVec.toNat sub) s).st = SchSt.active) ∧
      ((sch (BitVec.toNat sub) s).haltReq = false) ∧ ((sch (BitVec.toNat sub) s).pathReq = false) ∧
      ((sch (BitVec.toNat sub) s).noSpec = false) ∧ (bit (blwCtl (BitVec.toNat sub) s) 0 = true) ∧
      (bit (blwCtl (BitVec.toNat sub) s) 1 = true) ∧ ((stk (stkOf (BitVec.toNat sub)) s).spec = none) ∧
      (wFlag (sch (BitVec.toNat sub) s).words 0 = true) ∧ (wFlag (sch (BitVec.toNat sub) s).words 1 = false) ∧
      (stkRuns (stkOf (BitVec.toNat sub)) s = true) ∧ ((sch (BitVec.toNat sub) s).look = c :: rest) ∧ (c.entry = some e) ∧
      (specOk (BitVec.toNat sub) c 0 s = true) ∧ (wFlag c.words 7 = false) ∧ ((withX (BitVec.toNat sub) c s).fst = none) ∧
      ((withX (BitVec.toNat sub) c s).snd.free = s.free) ∧ ((withX (BitVec.toNat sub) c s).snd.due = s.due)) ∧
    (let sub : Sys2Proof.Sub := 0;
      let s : State := setRg 0x100 0x900 0x0057 {sB with sch := [(0,{st := .active, words := [0x1001,0,0,0,0,0,0,0], phase := .deferred, arriving := [(3,true)], look := [{addr := 8, words := [0x1001,40,0,0,0,0,0,0], entry := some (0xA800,7)}]})], stk := [(0, {cur := some 0})], ctx := [(0, {run := .inactive, r := [(3,3)]})]};
      let d : Byte := 3; let pf : Bool := true; let rest : List (Byte × Bool) := []; (up s = true) ∧
      ((sch (BitVec.toNat sub) s).arriving = (d, pf) :: rest) ∧ ((sch (BitVec.toNat sub) s).phase = Phase.deferred) ∧
      (specOf (BitVec.toNat sub) s = none)) ∧
    (let sub : Sys2Proof.Sub := 0;
      let s : State := setRg 0x100 0x900 0x0057 {sY with sch := [(0,{st := .active, phase := .proc, words := [0x1001,0,0,0,0,0,0,0], ccw := 0x100 , arriving := [(3,true)]})]};
      let d : Byte := 3; let pf : Bool := true; let rest : List (Byte × Bool) := []; (up s = true) ∧
      ((sch (BitVec.toNat sub) s).arriving = (d, pf) :: rest) ∧ ((sch (BitVec.toNat sub) s).phase = Phase.proc) ∧
      ((sch (BitVec.toNat sub) s).delivered = none)) ∧
    (let sub : Sys2Proof.Sub := 0;
      let s : State := setRg 0x100 0x900 0x0057 {sB with sch := [(0,{st := .active, phase := .proc, words := [0x1001,0,0,0,0,0,0,0], ccw := 0x100 })]};
      let a : Nat := 0x108; let ks : List Nat := span 0x11000108 8; let ws : List Word := [0,0,0,0,0,0,0,0]; (up s = true) ∧
      (bit (blwCtl (BitVec.toNat sub) s) 0 = true) ∧
      ((sch (BitVec.toNat sub) s).look.length < fld (blwCtl (BitVec.toNat sub) s) 6 4) ∧
      (lookBase (sch (BitVec.toNat sub) s) = true) ∧ (lookNext (BitVec.toNat sub) s = some (a, false)) ∧
      (ctlOk (BitVec.toNat sub) a s = true) ∧ (placesAt sub (List.map (fun i => i % 2 ^ 32) (span a 8)) ks s) ∧
      (wordsAt ks ws s) ∧ (wProc ws = false)) ∧
    (let sub : Sys2Proof.Sub := 0;
      let s : State := setRg 0x100 0x900 0x0057 {sB with sch := [(0,{st := .active, phase := .proc, look := [{addr := 0, words := [0x1001,40,0,0,0,0,0,0], entry := some (0xC000,0)}]})]};
      let c : LookCcw := ({addr := 0, words := [0x1001,40,0,0,0,0,0,0], entry := some (0xC000,0)} : LookCcw);
      let e : Word × Word := ((0xC000,0) : Word × Word); let rest : List LookCcw := [];
      let ks : List Nat := span 0x11000000 16; let ws : List Word := List.replicate 16 0; (up s = true) ∧
      (bit (blwCtl (BitVec.toNat sub) s) 0 = true) ∧ (bit (blwCtl (BitVec.toNat sub) s) 2 = true) ∧
      ((sch (BitVec.toNat sub) s).look = c :: rest) ∧ (c.entry = some e) ∧ (entDir e = 2) ∧ (wFlag c.words 4 = false) ∧
      (wAmode c.words = 0) ∧ (wDaddr c.words + 16 ≤ 2 ^ 32) ∧ (32 ≤ wCount c.words) ∧
      (placesAt sub (span (wDaddr c.words) 16) ks s) ∧ (wordsAt ks ws s)) ∧
    (let sub : Sys2Proof.Sub := 0;
      let s : State := setRg 0x100 0x900 0x0057 {sB with sch := [(0,{st := .active, words := [0x1001,0,0,0,0,0,0,0], phase := .deferred})], stk := [(0, {cur := some 0, spec := some {owner := 0, x := {addr := 8, words := []}, ckpt := {}, curAddr := 0, curCnt := 0}})], pins := [(3, {fq := [{time := 99, act := 1, tent := true, sub := some 0}]})]};
      let p : DevPin := 3; let e : FqEntry := ({time := 99, act := 1, tent := true, sub := some 0} : FqEntry);
      (up s = true) ∧ ((pin (BitVec.toNat p) s).fq = [e]) ∧ (e.tent = true) ∧ (e.sub = some (BitVec.toNat sub)) ∧
      (e.time < 2 ^ 64) ∧ ((specOf (BitVec.toNat sub) s).isSome = true)) := by
  refine ⟨?_, ?_, ?_, ?_, ?_, ?_⟩
  all_goals first | decide +kernel | (simp only [placesAt, wordsAt, loadsAt]; decide +kernel)

theorem witness_DraughtChannels :
    (let src : Src := .i3c; let f : FireboxNo := 2; let n : BitVec 4 := 11;
      let s : State := {sB with mem := [(0x22000000, 4)], chans := [(0x2B, {st := .run, burst := some {n := 3}, left := 6, desc := dsc 0 0 0x11000000 0x11000001 6, src := 0x11000000, dst := 0x11000001})]};
      let m : Nat := 3; let ks : List Nat := span 0x11000000 3; let ls : List Nat := span 0x11000001 3;
      let ws : List Word := [0x400, 0, 0]; (up s = true) ∧ (s.safe.on = false) ∧ (drRuns (BitVec.toNat f) s = true) ∧
      (chBusy (chan (chNo (BitVec.toNat f) n.toNat) s) = true) ∧ (chIdle (chan (chNo (BitVec.toNat f) n.toNat) s) = false) ∧
      ((chan (chNo (BitVec.toNat f) n.toNat) s).fetching = false) ∧
      ((chan (chNo (BitVec.toNat f) n.toNat) s).st = DrSt.run) ∧ ((chan (chNo (BitVec.toNat f) n.toNat) s).bound = none) ∧
      ((chan (chNo (BitVec.toNat f) n.toNat) s).burst = some { n := m }) ∧
      (2 * m ≤ (chan (chNo (BitVec.toNat f) n.toNat) s).left) ∧ (0 < m) ∧
      ((dstSide (chan (chNo (BitVec.toNat f) n.toNat) s).desc).kind = 0) ∧
      (List.map (fun x => drPlace (BitVec.toNat f) (dstSide (chan (chNo (BitVec.toNat f) n.toNat) s).desc).deep x s) (sideAddrs (dstSide (chan (chNo (BitVec.toNat f) n.toNat) s).desc).mode (dstSide (chan (chNo (BitVec.toNat f) n.toNat) s).desc).csize (chan (chNo (BitVec.toNat f) n.toNat) s).dst m) = List.map Place.mem ls) ∧
      (ls.Nodup) ∧ ((srcSide (chan (chNo (BitVec.toNat f) n.toNat) s).desc).kind = 0) ∧
      (List.map (fun x => drPlace (BitVec.toNat f) (srcSide (chan (chNo (BitVec.toNat f) n.toNat) s).desc).deep x s) (sideAddrs (srcSide (chan (chNo (BitVec.toNat f) n.toNat) s).desc).mode (srcSide (chan (chNo (BitVec.toNat f) n.toNat) s).desc).csize (chan (chNo (BitVec.toNat f) n.toNat) s).src m) = List.map Place.mem ks) ∧
      (wordsAt ks ws s)) ∧
    (let f : FireboxNo := 2; let n : BitVec 4 := 11;
      let s : State := {sB with chans := [(0x2B, {st := .halted, err := 6, latched := true})]}; (up s = true) ∧
      (s.safe.on = false) ∧ (drRuns (BitVec.toNat f) s = true) ∧ (chBusy (chan (chNo (BitVec.toNat f) n.toNat) s) = false) ∧
      ((chan (chNo (BitVec.toNat f) n.toNat) s).needDesc = false) ∧
      ((chan (chNo (BitVec.toNat f) n.toNat) s).st = DrSt.halted) ∧
      ((chan (chNo (BitVec.toNat f) n.toNat) s).bound = none) ∧ (5 ≤ (chan (chNo (BitVec.toNat f) n.toNat) s).err.toNat) ∧
      ((chan (chNo (BitVec.toNat f) n.toNat) s).burst = none)) ∧
    (let f : FireboxNo := 2; let n : BitVec 4 := 11;
      let s : State := setRgs (bDr 2) (chOfs 0x2B 2) [0x1100, 0x8] {sB with chans := [(0x2B, {st := .run, fetching := true})], mem := (List.range 16).map fun i => (0x22000010 + i, if i == 12 then 1 else if i == 4 || i == 8 then 0x11 else if i == 9 then 1 else 0)};
      let m : Nat := 0x11000008; let ws : List Word := [0,0,0x1100,0,0x1101,0,0x100,0]; (up s = true) ∧
      (s.safe.on = false) ∧ (drRuns (BitVec.toNat f) s = true) ∧ (chBusy (chan (chNo (BitVec.toNat f) n.toNat) s) = true) ∧
      (chIdle (chan (chNo (BitVec.toNat f) n.toNat) s) = true) ∧
      ((chan (chNo (BitVec.toNat f) n.toNat) s).fetching = true) ∧ (chDesc (chNo (BitVec.toNat f) n.toNat) s % 8 = 0) ∧
      (drPlace (BitVec.toNat f) false (chDesc (chNo (BitVec.toNat f) n.toNat) s) s = Place.mem m) ∧
      (wordsAt (span m 8) ws s) ∧ ((chan (chNo (BitVec.toNat f) n.toNat) s).part = false) ∧
      (descCheck (BitVec.toNat f) ws s = 0)) ∧
    (let f : FireboxNo := 2; let n : BitVec 4 := 11; let v : Word := 0x8043;
      let s : State := setRg (bDr 2) (chOfs 0x2B 0xB) 0x0202 {sB with sch := [(256+64+3, {st := .active, entry := some (0xA000, 0), curCnt := 77, curAddr := 0x12345678, more := 3})]};
      let e : Word × Word := ((0xA000,0):Word×Word); (up s = true) ∧ (s.safe.on = false) ∧
      (drRuns (BitVec.toNat f) s = true) ∧ (bit v 15 = true) ∧ ((chan (chNo (BitVec.toNat f) n.toNat) s).st = DrSt.idle) ∧
      ((sch (128 * BitVec.toNat f + 16 * fld v 6 4 + fld v 3 0) s).entry = some e) ∧
      ((sch (128 * BitVec.toNat f + 16 * fld v 6 4 + fld v 3 0) s).st = SchSt.active) ∧ (entDir e = 1) ∧
      (bit (rg (chBlk (chNo (BitVec.toNat f) n.toNat)) (chOfs (chNo (BitVec.toNat f) n.toNat) 11) s) 15 = false) ∧
      (0 < (sch (128 * BitVec.toNat f + 16 * fld v 6 4 + fld v 3 0) s).curCnt) ∧
      (fifoMine (BitVec.toNat f) (FifoId.idx (bindFifo (rg (chBlk (chNo (BitVec.toNat f) n.toNat)) (chOfs (chNo (BitVec.toNat f) n.toNat) 11) s) false)) false s = true)) ∧
    (let f : FireboxNo := 2; let n : BitVec 4 := 11;
      let s : State := setRgs (bDr 2) (chOfs 0x2B 2) [0x1100, 0x8] {sB with chans := [(0x2B, {st := .run, fetching := true})]};
      let m : Nat := 0x11000008; let ws : List Word := [0,0,0,0,0,0,0,0]; (up s = true) ∧ (s.safe.on = false) ∧
      (drRuns (BitVec.toNat f) s = true) ∧ (chBusy (chan (chNo (BitVec.toNat f) n.toNat) s) = true) ∧
      ((chan (chNo (BitVec.toNat f) n.toNat) s).fetching = true) ∧ (chDesc (chNo (BitVec.toNat f) n.toNat) s % 8 = 0) ∧
      (drPlace (BitVec.toNat f) false (chDesc (chNo (BitVec.toNat f) n.toNat) s) s = Place.mem m) ∧
      (wordsAt (span m 8) ws s) ∧ (descCheck (BitVec.toNat f) ws s ≠ 0)) ∧
    (let src : Src := .i3c; let f : FireboxNo := 2; let n : BitVec 4 := 11;
      let s : State := {sB with chans := [(0x2B, {st := .run, left := 100, desc := dsc 0 0 0x11000000 0x11010000 100, src := 0x11000000, dst := 0x11010000})]};
      let m : Nat := 8; (up s = true) ∧ (s.safe.on = false) ∧ (drRuns (BitVec.toNat f) s = true) ∧
      ((chan (chNo (BitVec.toNat f) n.toNat) s).bound = none) ∧ (drReady (chNo (BitVec.toNat f) n.toNat) s = some m) ∧
      (engineBusy (chNo (BitVec.toNat f) n.toNat) s = false) ∧
      (drChoose (BitVec.toNat f) s = some (chNo (BitVec.toNat f) n.toNat)) ∧
      (onFlue (BitVec.toNat f) (readsDeep (chan (chNo (BitVec.toNat f) n.toNat) s)) (burstReads (chan (chNo (BitVec.toNat f) n.toNat) s) { n := m }) s = false)) ∧
    (let src : Src := .i3c; let f : FireboxNo := 2; let n : BitVec 4 := 11; let b : Burst := {n := 3, ws := [1,2,3]};
      let s : State := {sB with chans := [(0x2B, {st := .halted, err := 6, burst := some {n := 3, ws := [1,2,3]}, left := 6, desc := dsc 0 0 0x11000000 0x11000001 6, src := 0x11000000, dst := 0x11000001})]};
      (up s = true) ∧ (s.safe.on = false) ∧ (drRuns (BitVec.toNat f) s = true) ∧
      ((chan (chNo (BitVec.toNat f) n.toNat) s).st = DrSt.halted) ∧
      ((chan (chNo (BitVec.toNat f) n.toNat) s).bound = none) ∧ (5 ≤ (chan (chNo (BitVec.toNat f) n.toNat) s).err.toNat) ∧
      ((chan (chNo (BitVec.toNat f) n.toNat) s).burst = some b) ∧
      ((chan (chNo (BitVec.toNat f) n.toNat) s).latched = false) ∧ (b.sent = false) ∧
      (onFlue (BitVec.toNat f) (readsDeep (chan (chNo (BitVec.toNat f) n.toNat) s)) (burstReads (chan (chNo (BitVec.toNat f) n.toNat) s) b) s = false)) ∧
    (let f : FireboxNo := 2; let n : BitVec 4 := 11; let q : Nat := 8; let ws : List FWord := [{w := 9}, {w := 8}];
      let rest : List FWord := [{w := 7}]; let m : Nat := 2; let ls : List Nat := span 0x11000001 2;
      let s : State := {sB with fifos := [(8, {q := [{w := 9}, {w := 8}, {w := 7}], rsv := 2})], chans := [(0x2B, {st := .run, burst := some {n := 2}, left := 6, desc := dsc 0x4000 0x0100 0 0x11000001 6, dst := 0x11000001})]};
      (up s = true) ∧ (s.safe.on = false) ∧ (drRuns (BitVec.toNat f) s = true) ∧
      ((chan (chNo (BitVec.toNat f) n.toNat) s).fetching = false) ∧
      ((chan (chNo (BitVec.toNat f) n.toNat) s).st = DrSt.run) ∧ ((chan (chNo (BitVec.toNat f) n.toNat) s).bound = none) ∧
      ((chan (chNo (BitVec.toNat f) n.toNat) s).burst = some { n := m }) ∧
      (2 * m ≤ (chan (chNo (BitVec.toNat f) n.toNat) s).left) ∧ (0 < m) ∧
      ((dstSide (chan (chNo (BitVec.toNat f) n.toNat) s).desc).kind = 0) ∧
      (List.map (fun x => drPlace (BitVec.toNat f) (dstSide (chan (chNo (BitVec.toNat f) n.toNat) s).desc).deep x s) (sideAddrs (dstSide (chan (chNo (BitVec.toNat f) n.toNat) s).desc).mode (dstSide (chan (chNo (BitVec.toNat f) n.toNat) s).desc).csize (chan (chNo (BitVec.toNat f) n.toNat) s).dst m) = List.map Place.mem ls) ∧
      (ls.Nodup) ∧
      (sideFifo (srcSide (chan (chNo (BitVec.toNat f) n.toNat) s).desc).kind (srcSide (chan (chNo (BitVec.toNat f) n.toNat) s).desc).res false = some q) ∧
      ((fifo q s).q = ws ++ rest) ∧ (ws.length = m) ∧ ((ws.any fun w => w.eop) = false)) := by
  refine ⟨?_, ?_, ?_, ?_, ?_, ?_, ?_, ?_⟩
  all_goals first | decide +kernel | (simp only [placesAt, wordsAt, loadsAt]; decide +kernel)

theorem witness_ChimneyLanes :
    (let q : QuadNo := 1; let l : LaneNo := 5; let v : Word := 0x0C00; let s : State := sL; (up s = true) ∧
      (s.safe.on = false) ∧ (bulkLanes s ≤ BitVec.toNat l) ∧ (laneRetired (BitVec.toNat l) s = false) ∧ (fld v 15 12 ≠ 1) ∧
      (fld v 15 12 ≤ 8) ∧ (fecOk (fld v 15 12) (fld v 11 10) = true) ∧ (modePll (BitVec.toNat l) (fld v 15 12) s = true) ∧
      (∀ (i : Nat), i < 4 → (fifo (lnFifo (BitVec.toNat l) i) s).rsv = 0) ∧
      (∀ (m : Nat), m < 4 → laneMode (4 * BitVec.toNat q + m) s < 5) ∧ (1000 ≤ BitVec.toNat v) ∧ (BitVec.toNat v ≤ 6250) ∧
      (2 ≤ fld (lnReg (BitVec.toNat l) 0 s) 15 12) ∧ (bit (lnReg (BitVec.toNat l) 2 s) 15 = false)) ∧
    (let l : LaneNo := 5; let q : QuadNo := 1;
      let s : State := {sL2 with fifos := [(534,{q := [{w := 1},{w := 2, eop := true},{w := 3}]})]};
      let fr : RxFrame := fr0; (up s = true) ∧ (s.safe.on = false) ∧ (bulkLanes s ≤ BitVec.toNat l) ∧
      (2 ≤ fld (lnReg (BitVec.toNat l) 0 s) 15 12) ∧ (fld (lnReg (BitVec.toNat l) 0 s) 15 12 ≤ 6) ∧
      (bit (lnReg (BitVec.toNat l) 2 s) 15 = true) ∧ (fr.codeErrs = 0) ∧ (fr.trunc = false) ∧ (fr.fcsErr = false) ∧
      (64 ≤ fr.bytes.length) ∧ (fr.bytes.length ≤ BitVec.toNat (lnReg (BitVec.toNat l) 4 s)) ∧
      (bit (lnReg (BitVec.toNat l) 0 s) 5 = false) ∧ ((fr.bytes.length + 1) / 2 ≤ fifoFree (lnFifo (BitVec.toNat l) 0) s) ∧
      (6 ≤ fifoFree (lnFifo (BitVec.toNat l) 1) s) ∧ ((fifo (lnFifo (BitVec.toNat l) 0) s).dropping = false) ∧
      ((fifo (lnFifo (BitVec.toNat l) 1) s).dropping = false) ∧ (txReady (BitVec.toNat l) s = true)) ∧
    (let l : LaneNo := 5; let s : State := {sL2 with lanes := [(5, {sending := true, txWords := [{w := 1, eop := true}]})]};
      (up s = true) ∧ (s.safe.on = false) ∧ (bulkLanes s ≤ BitVec.toNat l) ∧ ((lane (BitVec.toNat l) s).sending = true) ∧
      (((lane (BitVec.toNat l) s).txWords.any fun w => w.eop) = true) ∧ (fld (lnReg (BitVec.toNat l) 0 s) 15 12 ≠ 8) ∧
      (bit (lnReg (BitVec.toNat l) 0 s) 3 = false) ∧ ((lane (BitVec.toNat l) s).post = none)) ∧
    (let l : LaneNo := 5;
      let s : State := {sL2 with lanes := [(5, {sending := true, txWords := [{w := 1, eop := true}], post := some 0x133, postDstat := 9})]};
      let sub : Nat := 0x133; (up s = true) ∧ (s.safe.on = false) ∧ (bulkLanes s ≤ BitVec.toNat l) ∧
      ((lane (BitVec.toNat l) s).sending = true) ∧ (((lane (BitVec.toNat l) s).txWords.any fun w => w.eop) = true) ∧
      (fld (lnReg (BitVec.toNat l) 0 s) 15 12 ≠ 8) ∧ (bit (lnReg (BitVec.toNat l) 0 s) 3 = false) ∧
      ((lane (BitVec.toNat l) s).post = some sub) ∧ ((lane (BitVec.toNat l) s).lost = false) ∧
      ((lane (BitVec.toNat l) s).ahead = 0) ∧ ((lane (BitVec.toNat l) s).tgtOver = false)) ∧
    (let l : LaneNo := 5; let s : State := {sL with lanes := [(5, {own := some 2})]}; let sub : Sys2Proof.Sub := 0x133;
      (up s = true) ∧ (s.safe.on = false) ∧ (bulkLanes s ≤ BitVec.toNat l) ∧
      ((lane (BitVec.toNat l) s).own = some (BitVec.ofNat 6 (subFbx (BitVec.toNat sub)))) ∧
      ((lane (BitVec.toNat l) s).post = none)) ∧
    (let l : LaneNo := 5;
      let s : State := {setRg 0x19 (lnOfs 5 0) 0x2008 sL with lanes := [(5, {sending := true, txStamp := 0x123456789, txWords := [{w := 1, eop := true}]})]};
      (up s = true) ∧ (s.safe.on = false) ∧ (bulkLanes s ≤ BitVec.toNat l) ∧ ((lane (BitVec.toNat l) s).sending = true) ∧
      (((lane (BitVec.toNat l) s).txWords.any fun w => w.eop) = true) ∧ (fld (lnReg (BitVec.toNat l) 0 s) 15 12 ≠ 8) ∧
      (bit (lnReg (BitVec.toNat l) 0 s) 3 = true) ∧ ((lane (BitVec.toNat l) s).post = none) ∧
      (6 ≤ fifoFree (lnFifo (BitVec.toNat l) 3) s) ∧ ((fifo (lnFifo (BitVec.toNat l) 3) s).dropping = false)) ∧
    (let l : LaneNo := 5;
      let s : State := {sL2 with lanes := [(5, {sending := true, txStamp := 0x123456789, txWords := [{w := 1}]})]};
      (up s = true) ∧ (s.safe.on = false) ∧ (bulkLanes s ≤ BitVec.toNat l) ∧ ((lane (BitVec.toNat l) s).sending = true) ∧
      (((lane (BitVec.toNat l) s).txWords.any fun w => w.eop) = false) ∧ ((fifo (lnFifo (BitVec.toNat l) 2) s).q = []) ∧
      (fld (lnReg (BitVec.toNat l) 0 s) 15 12 ≠ 8)) ∧
    (let l : LaneNo := 5; let res : BitVec 3 := 1; let fec : BitVec 2 := 2;
      let s : State := setRg 0x19 (lnOfs 5 0) 0x2A00 sL; (up s = true) ∧ (s.safe.on = false) ∧
      (bulkLanes s ≤ BitVec.toNat l) ∧ (2 ≤ fld (lnReg (BitVec.toNat l) 0 s) 15 12) ∧
      (anMay (BitVec.toNat l) res.toNat fec.toNat s = true)) := by
  refine ⟨?_, ?_, ?_, ?_, ?_, ?_, ?_, ?_⟩
  all_goals decide +kernel

theorem witness_BulkPort :
    (let ofs : W32 := 0x100; let v : Word := 0x4000;
      let s : State := {setRg 9 1 0x8F01 sBk with bulk := {sBk.bulk with msix := [{vec := 4, addr := 5, data := 2}]}};
      let x : Word := 0x1234; (up s = true) ∧ (s.bulk.linkUp = true) ∧ (s.bulk.jobs = []) ∧
      (∀ (j : HostJob), j ∈ s.bulk.jobs → j.wr = false) ∧ (booted s = true) ∧ (gdReady s = true) ∧
      (s.mute.contains (BusReq.host true) = false) ∧ (BitVec.toNat ofs % 2 = 0) ∧ (BitVec.toNat ofs + 2 ≤ 2 ^ 32) ∧
      (place none none (2147483648 + BitVec.toNat ofs / 2) s = Place.mem (2147483648 + BitVec.toNat ofs / 2)) ∧
      (memWord (2147483648 + BitVec.toNat ofs / 2) s = some x) ∧ (mget 0 (2147483648 + BitVec.toNat ofs / 2) s.marks = 0) ∧
      (bit v 14 = true)) ∧
    (let w : BitVec 2 := 2; let g : BitVec 2 := 0; let s : State := sB; (up s = true) ∧ (s.bulk.on = true) ∧
      (s.bulk.linkUp = false) ∧ (w.toNat ≤ s.bulk.width.toNat) ∧ (g.toNat ≤ s.bulk.gen.toNat)) ∧
    (let ofs : W32 := 0xE0000000; let s : State := setRg 9 1 0x8F01 (setRg 9 0 0x10 sBk); (up s = true) ∧
      (s.bulk.linkUp = true) ∧ (booted s = true) ∧ (gdReady s = true) ∧ (s.mute.contains (BusReq.host true) = false) ∧
      (s.bulk.jobs = []) ∧ (BitVec.toNat ofs % 2 = 0) ∧ (BitVec.toNat ofs + 2 ≤ 2 ^ 32) ∧
      (place none none (2147483648 + BitVec.toNat ofs / 2) s = Place.unmapped)) := by
  refine ⟨?_, ?_, ?_⟩
  all_goals decide +kernel

theorem witness_FluePorts :
    (let p : PortNo := 2; let sq : BitVec 12 := 5; let v : Word := 0x800F;
      let s : State := {setRg (bFl 2) 0 0x800F w9_sF with flues := [(2, {replay := [tp 5, tp 7, tp 8], reqCr := 30, unacked := 3, rxSeq := 4})]};
      let pre : List TxPacket := []; let t : TxPacket := tp 5; let rest : List TxPacket := [tp 7, tp 8]; (up s = true) ∧
      (bit (rg (bFl (BitVec.toNat p)) 0 s) 15 = true) ∧ (fld (rg (bFl (BitVec.toNat p)) 0 s) 3 0 ≠ 0) ∧
      (bit (rg (bFl (BitVec.toNat p)) 1 s) 12 = false) ∧ (bit (rg (bFl (BitVec.toNat p)) 0 s) 13 = false) ∧
      (flUp (BitVec.toNat p) s = true) ∧ ((flue (BitVec.toNat p) s).replay = pre ++ t :: rest) ∧ (t.p.seq = sq) ∧
      (∀ (y : TxPacket), y ∈ pre → y.p.seq ≠ sq) ∧ ((flue (BitVec.toNat p) s).waiting = []) ∧
      ((flue (BitVec.toNat p) s).replay = t :: rest) ∧ ((flue (BitVec.toNat p) s).replays = 0) ∧
      (1 < fld (rg (bFl (BitVec.toNat p)) 0 s) 3 0) ∧ ((flue (BitVec.toNat p) s).unacked ≠ 0) ∧
      ((flue (BitVec.toNat p) s).replay ≠ []) ∧ (bit v 15 = true)) ∧
    (let p : PortNo := 2; let nbr : DevNo := 9; let far : BitVec 4 := 0xF; let v : Word := 0x7123;
      let s : State := setRg (bFl 2) 1 0x0F00 {sB with flues := [(2, {bringup := true, tries := 3})]}; (up s = true) ∧
      (bit v 15 = false) ∧ (fld v 3 0 ≠ 0) ∧ ((flue (BitVec.toNat p) s).bringup = true) ∧
      ((flue (BitVec.toNat p) s).waiting = []) ∧ (fld (rg (bFl (BitVec.toNat p)) 1 s) 11 8 = 15) ∧
      (BitVec.toNat nbr ≠ devNum s) ∧ (laneCount far.toNat = 4) ∧ (∀ (i : Nat), i < 4 → bit (rg (bFl i) 0 s) 15 = false) ∧
      (3 ≤ (flue (BitVec.toNat p) s).tries)) ∧
    (let p : PortNo := 2; let s : State := sUp; let t1 : W64 := 1000; (up s = true) ∧ (isUpport (BitVec.toNat p) s = true) ∧
      ((flue (BitVec.toNat p) s).lostRun ≠ 7) ∧ (rg (bFl (BitVec.toNat p)) 4 s = 0) ∧ ((flue (BitVec.toNat p) s).fr = 0) ∧
      (s.ft.running = true) ∧ (BitVec.toNat t1 + 40 < 2 ^ 64)) ∧
    (let p : PortNo := 2; let v : Word := 0x800F; let s : State := sB; (up s = true) ∧ (bit v 15 = true) ∧
      (bit v 14 = false) ∧ (bit v 13 = false) ∧ (fld v 3 0 ≠ 0) ∧ (booted s = true) ∧
      (bit (rg (bFl (BitVec.toNat p)) 1 s) 12 = false) ∧ (bit (rg (bFl (BitVec.toNat p)) 1 s) 15 = false) ∧
      (isolated s = false) ∧ ((flue (BitVec.toNat p) s).bringup = false)) ∧
    (let p : PortNo := 2; let s : State := setRg (bFl 2) 1 0x0F00 {sB with flues := [(2, {bringup := true})]};
      (up s = true) ∧ ((flue (BitVec.toNat p) s).bringup = true) ∧ ((flue (BitVec.toNat p) s).tries < 3)) ∧
    (let p : PortNo := 2; let t1 : W64 := 0x12345;
      let s : State := setRg 0x14 0x100 0x4000 (setRg (bFl 2) 1 0x8F00 {sB with flues := [(2, {timeT1 := some 0x12345})]});
      (up s = true) ∧ (timeServes (BitVec.toNat p) s = true) ∧ ((flue (BitVec.toNat p) s).timeT1 = some t1)) := by
  refine ⟨?_, ?_, ?_, ?_, ?_, ?_⟩
  all_goals decide +kernel

theorem witness_FluePackets :
    (let p : PortNo := 2; let k : Packet := pk 1 [0x1100, 0, 0, 0, 0x1234, 0x5678, 0, 0, 0, 0, 0, 0];
      let ks : List Nat := span 0x11000000 2; let s : State := w10_sF; let src : Src := .stoker 0x44;
      let op : BitVec 4 := 6; let dev : DevNo := 0; (up s = true) ∧ (booted s = true) ∧ (flUp (BitVec.toNat p) s = true) ∧
      (isolated s = false) ∧ (k.seq = (flue (BitVec.toNat p) s).rxSeq) ∧ (BitVec.toNat k.dest = devNum s) ∧
      (bit (routeW (BitVec.toNat k.src) s) 14 = false) ∧ (s.mute.contains (BusReq.port p) = false) ∧ (pktOk 2 k = true) ∧
      (List.map (fun x => extPlace (Src.flue p) x s) (span (pktAddr k) (k.cnt.toNat + 1)) = List.map Place.mem ks) ∧
      (pktAddr k + (k.cnt.toNat + 1) ≤ 2 ^ 32) ∧ (ks.Nodup) ∧ ((rop src s).pend = false) ∧ (BitVec.toNat dev = devNum s) ∧
      (op = 6)) ∧
    (let p : PortNo := 2; let k : Packet := pk 1 [0x1100, 0, 0, 0]; let ks : List Nat := span 0x11000000 2;
      let ws : List Word := [0x900, 8]; let s : State := {w10_sF with rops := [(srcNo (.stoker 0x44), {pend := true})]};
      let src : Src := .stoker 0x44; (up s = true) ∧ (booted s = true) ∧ (flUp (BitVec.toNat p) s = true) ∧
      (isolated s = false) ∧ (k.seq = (flue (BitVec.toNat p) s).rxSeq) ∧ (BitVec.toNat k.dest = devNum s) ∧
      (bit (routeW (BitVec.toNat k.src) s) 14 = false) ∧ (s.mute.contains (BusReq.port p) = false) ∧ (pktOk 1 k = true) ∧
      (List.map (fun x => extPlace (Src.flue p) x s) (span (pktAddr k) (k.cnt.toNat + 1)) = List.map Place.mem ks) ∧
      (pktAddr k + (k.cnt.toNat + 1) ≤ 2 ^ 32) ∧ (wordsAt ks ws s) ∧ ((rop src s).pend = true)) ∧
    (let p : PortNo := 2; let k : Packet := pk 0 [0, 0x6000, 0, 0, 0, 0, 0, 0]; let s : State := w10_sF; (up s = true) ∧
      (booted s = true) ∧ (flUp (BitVec.toNat p) s = true) ∧ (isolated s = false) ∧
      (k.seq = (flue (BitVec.toNat p) s).rxSeq) ∧ (BitVec.toNat k.dest = devNum s) ∧
      (bit (routeW (BitVec.toNat k.src) s) 14 = false) ∧ (s.mute.contains (BusReq.port p) = false) ∧ (pktOk 4 k = true) ∧
      (nth k.payload 1 = 24576)) ∧
    (let p : PortNo := 2; let k : Packet := pk 0 [];
      let s : State := {w10_sF with outst := [(7, .op 44)], rops := [(44, {pend := true})]}; let who : Nat := 44;
      (up s = true) ∧ (booted s = true) ∧ (flUp (BitVec.toNat p) s = true) ∧ (isolated s = false) ∧
      (k.seq = (flue (BitVec.toNat p) s).rxSeq) ∧ (BitVec.toNat k.dest = devNum s) ∧
      (bit (routeW (BitVec.toNat k.src) s) 14 = false) ∧ (s.mute.contains (BusReq.port p) = false) ∧
      (List.find? (fun kv => kv.fst == BitVec.toNat k.tag) s.outst = some (BitVec.toNat k.tag, Outst.op who)) ∧
      (s.i3c.exec = none) ∧ (s.bulk.jobs = []) ∧ (k.stat = 0) ∧ (pktOk 11 k = true)) ∧
    (let p : PortNo := 2; let k : Packet := pk 1 [3,4,0,0];
      let s : State := {w10_sF with outst := [(7, .load 5 77 2)], ctx := [(5, {run := .stalled, stall := .flue})]};
      let sub : Nat := 5; let addr : Nat := 77; let m : Nat := 2; (up s = true) ∧ (booted s = true) ∧
      (flUp (BitVec.toNat p) s = true) ∧ (isolated s = false) ∧ (k.seq = (flue (BitVec.toNat p) s).rxSeq) ∧
      (BitVec.toNat k.dest = devNum s) ∧ (bit (routeW (BitVec.toNat k.src) s) 14 = false) ∧
      (s.mute.contains (BusReq.port p) = false) ∧ (k.stat = 0) ∧ (s.i3c.exec = none) ∧ (s.bulk.jobs = []) ∧
      ((ctx sub s).run = Run.stalled) ∧ ((ctx sub s).stopped = false) ∧ ((ctx sub s).got = []) ∧
      (List.find? (fun kv => kv.fst == BitVec.toNat k.tag) s.outst = some (BitVec.toNat k.tag, Outst.load sub addr m)) ∧
      (pktOk 8 k = true)) ∧
    (let p : PortNo := 2; let k : Packet := pk 0 [3,4,0,0];
      let s : State := {w10_sF with outst := [(7, .atom 5 77 1)], ctx := [(5, {run := .stalled, stall := .flue})]};
      let sub : Nat := 5; let addr : Nat := 77; (up s = true) ∧ (booted s = true) ∧ (flUp (BitVec.toNat p) s = true) ∧
      (isolated s = false) ∧ (k.seq = (flue (BitVec.toNat p) s).rxSeq) ∧ (BitVec.toNat k.dest = devNum s) ∧
      (bit (routeW (BitVec.toNat k.src) s) 14 = false) ∧ (s.mute.contains (BusReq.port p) = false) ∧ (k.stat = 0) ∧
      (s.i3c.exec = none) ∧ (s.bulk.jobs = []) ∧ ((ctx sub s).run = Run.stalled) ∧ ((ctx sub s).stopped = false) ∧
      ((ctx sub s).got = []) ∧
      (List.find? (fun kv => kv.fst == BitVec.toNat k.tag) s.outst = some (BitVec.toNat k.tag, Outst.atom sub addr 1)) ∧
      (pktOk 10 k = true)) ∧
    (let p : PortNo := 2; let k : Packet := pk 0 [0x1100, 0, 1, 0, 0, 0x11, 0, 0]; let s : State := w10_sF;
      let key : Nat := 0x11000000; let w : Word := 0x900; let x : Nat := 0x911; (up s = true) ∧ (booted s = true) ∧
      (flUp (BitVec.toNat p) s = true) ∧ (isolated s = false) ∧ (k.seq = (flue (BitVec.toNat p) s).rxSeq) ∧
      (BitVec.toNat k.dest = devNum s) ∧ (bit (routeW (BitVec.toNat k.src) s) 14 = false) ∧
      (s.mute.contains (BusReq.port p) = false) ∧ (pktOk 3 k = true) ∧ (bit (nth k.payload 2) 15 = false) ∧
      (extPlace (Src.flue p) (pktAddr k) s = Place.mem key) ∧ (pktAddr k < 2 ^ 32) ∧ (wordsAt [key] [w] s) ∧
      (atomNew (fld (nth k.payload 2) 2 0) 16 (BitVec.toNat w) (BitVec.toNat (nth k.payload 5)) (BitVec.toNat (nth k.payload 7)) = some x)) ∧
    (let p : PortNo := 2; let k : Packet := pk 0 [0x1100, 0, 4, 0, 0, 0x11, 0, 0]; let s : State := w10_sF;
      let key : Nat := 0x11000000; let w : Word := 0x900; (up s = true) ∧ (booted s = true) ∧
      (flUp (BitVec.toNat p) s = true) ∧ (isolated s = false) ∧ (k.seq = (flue (BitVec.toNat p) s).rxSeq) ∧
      (BitVec.toNat k.dest = devNum s) ∧ (bit (routeW (BitVec.toNat k.src) s) 14 = false) ∧
      (s.mute.contains (BusReq.port p) = false) ∧ (pktOk 3 k = true) ∧ (bit (nth k.payload 2) 15 = false) ∧
      (extPlace (Src.flue p) (pktAddr k) s = Place.mem key) ∧ (pktAddr k < 2 ^ 32) ∧ (wordsAt [key] [w] s) ∧
      (atomNew (fld (nth k.payload 2) 2 0) 16 (BitVec.toNat w) (BitVec.toNat (nth k.payload 5)) (BitVec.toNat (nth k.payload 7)) = none)) ∧
    (let p : PortNo := 2; let k : Packet := pk 0 []; let addr : W32 := 5;
      let s : State := {w10_sF with outst := [(7, .store 5)], ctx := [(5, {posted := [{addr := [1], words := [2], tags := [7]}]})]};
      let sub : Nat := 5; let st : Store := {addr := [1], words := [2], tags := [7]}; (up s = true) ∧ (booted s = true) ∧
      (flUp (BitVec.toNat p) s = true) ∧ (isolated s = false) ∧ (k.seq = (flue (BitVec.toNat p) s).rxSeq) ∧
      (BitVec.toNat k.dest = devNum s) ∧ (bit (routeW (BitVec.toNat k.src) s) 14 = false) ∧
      (s.mute.contains (BusReq.port p) = false) ∧
      (List.find? (fun kv => kv.fst == BitVec.toNat k.tag) s.outst = some (BitVec.toNat k.tag, Outst.store sub)) ∧
      (k.stat = 0) ∧ (s.i3c.exec = none) ∧ (s.bulk.jobs = []) ∧ ((ctx sub s).posted = [st]) ∧ ((ctx sub s).drain = []) ∧
      (st.tags = [k.tag]) ∧ (pktOk 9 k = true)) := by
  refine ⟨?_, ?_, ?_, ?_, ?_, ?_, ?_, ?_, ?_⟩
  all_goals first | decide +kernel | (simp only [placesAt, wordsAt, loadsAt]; decide +kernel)

theorem witness_EventControllers :
    (let h : HearthNo := 2; let n : EvNo := 5; let k : StokerNo := 129; let v : Word := 0x0405; let s : State := sE;
      let m : Nat := 5; let rest : List Nat := [6]; (up s = true) ∧ (0 < BitVec.toNat n) ∧ (BitVec.toNat n < 256) ∧
      (evTarget (BitVec.toNat h) (BitVec.toNat n) s ≠ 64) ∧ (evGet (bHrt (BitVec.toNat h)) 320 (BitVec.toNat n) s = false) ∧
      ((stk (BitVec.toNat k) s).claims = m :: rest) ∧ (m < 1024) ∧ (fld v 6 0 ≠ 0) ∧
      (evTarget (BitVec.toNat h) (fld v 6 0) s ≠ 64) ∧ (evGet (bHrt (BitVec.toNat h)) 320 (fld v 6 0) s = false) ∧
      (bit v 15 = false)) ∧
    (let h : HearthNo := 2; let n : EvNo := 5; let s : State := sE2; let t : BitVec 6 := 0; let m : Nat := 5;
      (up s = true) ∧ (0 < BitVec.toNat n) ∧ (BitVec.toNat n < 256) ∧ (evTarget (BitVec.toNat h) (BitVec.toNat n) s ≠ 64) ∧
      (evGet (bHrt (BitVec.toNat h)) 320 (BitVec.toNat n) s = true) ∧
      (evTarget (BitVec.toNat h) (BitVec.toNat n) s = t.toNat) ∧
      (∀ (m : Nat), m < 1024 → (evGet (bHrt (BitVec.toNat h)) 320 m s = true ↔ m = BitVec.toNat n)) ∧
      (levelSources s (BitVec.toNat h) = []) ∧ (evEn (BitVec.toNat h) (BitVec.toNat n) s = true) ∧
      (evInSvc (BitVec.toNat h) (BitVec.toNat n) s = false) ∧ (tgtGone (64 * BitVec.toNat h + t.toNat) s = false) ∧
      ((stk (64 * BitVec.toNat h + t.toNat) s).insvc = [])) ∧
    (let n : EvNo := 300; let s : State := sE; (up s = true) ∧ (evIsLevel (BitVec.toNat n) = true)) ∧
    (let h : HearthNo := 2; let n : EvNo := 5; let s : State := sE3; (up s = true) ∧
      (evPending (BitVec.toNat h) (BitVec.toNat n) s = true) ∧ (isOrphan (BitVec.toNat h) (BitVec.toNat n) s = false) ∧
      (evTarget (BitVec.toNat h) (BitVec.toNat n) s < 64) ∧
      (tgtGone (64 * BitVec.toNat h + evTarget (BitVec.toNat h) (BitVec.toNat n) s) s = true) ∧
      (fallback (BitVec.toNat h) s = none)) ∧
    (let k : StokerNo := 129; let m : Nat := 5; let rest : List Nat := [6];
      let s : State := {w10b_sE with stk := [(129, {dones := [5, 6], claims := [9]}), (130, {})]}; (up s = true) ∧
      ((stk (BitVec.toNat k) s).dones = m :: rest) ∧ (m < 1024) ∧ ((stk (BitVec.toNat k) s).claims.contains m = false) ∧
      (rest.contains m = false) ∧ (((stk (BitVec.toNat k) s).insvc.any fun e => e.fst == m) = false) ∧
      (∀ (ks : Nat × Stk), ks ∈ s.stk → ks.fst ≠ BitVec.toNat k → hrtOf ks.fst = hrtOf (BitVec.toNat k) → stkHolds ks.fst m s = false)) := by
  refine ⟨?_, ?_, ?_, ?_, ?_⟩
  all_goals decide +kernel

theorem witness_HostEvents :
    (let src : Src := .i3c; let v : Word := 0xFD; let s : State := {sH2 with hev := {sH2.hev with ibi := true}};
      (up s = true) ∧ (s.hev.lastSig < hevNext s) ∧ (s.hev.wake = false) ∧ (bit (rg 2 0 s) 0 = true) ∧
      (s.i3c.da.isSome = true) ∧ (s.i3c.tint = true) ∧ (bit (rg 2 0 s) 1 = false) ∧ (hevCount s < 16) ∧
      (BitVec.toNat s.hev.latch ≤ hevNext s) ∧ (∀ (sub : Sub), src ≠ Src.stoker sub) ∧ (hevTake s ≠ 0) ∧
      (hevInSvc (fld v 7 0) s = false) ∧ (240 ≤ fld v 7 0) ∧ (fld v 7 0 ≤ 253) ∧ (s.hev.ibi = true) ∧
      (s.hev.backoff = false) ∧ (s.hev.retry < 8)) ∧
    (let v : Word := 0xFE; let s : State := {sH2 with hev := {sH2.hev with ibi := true, retry := 8}}; (up s = true) ∧
      (fld v 7 0 < 240 ∨ 253 < fld v 7 0) ∧ (s.hev.ibi = true) ∧ (s.hev.backoff = false) ∧ (8 ≤ s.hev.retry)) ∧
    (let s : State := {sH2 with hev := {sH2.hev with backoff := true}}; (up s = true) ∧ (s.hev.backoff = true) ∧
      (hevNext s ≠ 0)) ∧
    (let v : Word := 5; let s : State := evPut 2 0x30 5 true sB; (up s = true) ∧ (0 < fld v 7 0) ∧
      (hevInSvc (fld v 7 0) s = true)) ∧
    (let s : State := setRg 2 0x30 0xFFFF (setRg 2 0x31 0x8000 sB); (up s = true) ∧ (16 ≤ hevCount s)) ∧
    (let w : BitVec 4 := 0; let v : Word := 0x0400; let s : State := {sH2 with hev := {sH2.hev with latch := 0x25}};
      (up s = true) ∧ (¬(BitVec.toNat s.hev.latch / 16 = w.toNat ∧ bit v (evBit (BitVec.toNat s.hev.latch)) = true))) ∧
    (let s : State := {sB with hev := {sB.hev with backoff := true, ibi := true, retry := 3}}; (up s = true) ∧
      (s.hev.backoff = true) ∧ (hevNext s = 0)) := by
  refine ⟨?_, ?_, ?_, ?_, ?_, ?_, ?_⟩
  all_goals decide +kernel

theorem witness_CommonCommandCodes :
    (let f : CccForm := .direct; let db : Byte := 2; let s : State := sD {da := some 9, crcFlag := true}; (up s = true) ∧
      (s.i3c.deaf = false) ∧ (f = CccForm.broadcast ∨ f = CccForm.direct) ∧ (2 ≤ BitVec.toNat db)) := by
  all_goals decide +kernel

theorem witness_WindowRequests :
    (let code : Byte := 0xA0; let count : Byte := 1; let dlen : Byte := 2; let a : W32 := 0x80000000; let op : Byte := 2;
      let w : Word := 0x1234; let s : State := setRg 9 1 0x8F01 (sW [(0x100000000, 0x12), (0x100000001, 0x34)]);
      let k : Nat := 0x80000000; let n : Byte := 0xFF; let crc : Bool := false; let len : Bool := true; let c : Nat := 1;
      (up s = true) ∧ (booted s = true) ∧ (s.i3c.da.isSome = true) ∧ (s.i3c.deaf = false) ∧ (s.i3c.exec = none) ∧
      (s.mute.contains (BusReq.host false) = false) ∧ (2147483648 ≤ BitVec.toNat a) ∧ (gdReady s = true) ∧
      (place none none (BitVec.toNat a) s = Place.mem k) ∧ (mget 0 k s.marks = 0) ∧ (memWord k s = some w) ∧ (n ≠ 0) ∧
      (quoteRuns s = false) ∧
      (winFails (BitVec.toNat op) (BitVec.toNat count) (BitVec.toNat a) (BitVec.toNat dlen) crc len = c) ∧ (c ≠ 0) ∧
      (s.i3c.hdr = false ∨ code = 32) ∧ (crc = false)) ∧
    (let code : Byte := 0x21; let a : W32 := 0x18000000;
      let s : State := {sW [] with i3c := {(sW []).i3c with hdr := true}}; (up s = true) ∧ (booted s = true) ∧
      (s.i3c.da.isSome = true) ∧ (s.i3c.deaf = false) ∧ (s.i3c.exec = none) ∧
      (s.mute.contains (BusReq.host false) = false) ∧ (place none none (BitVec.toNat a) s = Place.unmapped) ∧
      (s.i3c.hdr = true) ∧ (code ≠ 32)) := by
  refine ⟨?_, ?_⟩
  all_goals decide +kernel

theorem witness_RingQueues :
    (let n : QueueNo := 3; let v : Word := 0xC405;
      let s : State := {sQ with cqs := [(3, {timerOn := true, waiting := [.sub 3]})]}; (up s = true) ∧
      (bit (wqReg (BitVec.toNat n) 0 s) 15 = false) ∧ (bit v 15 = true) ∧ (fld v 12 8 = 4) ∧
      (ringOk (rgs 1 (wqOfs (BitVec.toNat n) + 1) 2 s) 16 s = true) ∧ (bit (cqCtl (BitVec.toNat n) s) 15 = false) ∧
      ((cq (BitVec.toNat n) s).ready = false) ∧ (ringOk (rgs 1 (cqOfs (BitVec.toNat n) + 1) 2 s) 16 s = true) ∧
      (gdWaits (rgs 1 (cqOfs (BitVec.toNat n) + 1) 2 s) s = false) ∧
      (∀ (w : Nat) (rest : List Waiter), (cq (BitVec.toNat n) s).waiting ≠ Waiter.wq w :: rest) ∧
      ((cq (BitVec.toNat n) s).timerOn = true)) ∧
    (let n : QueueNo := 3; let v : Word := 0x0405;
      let s : State := setRg 1 (wqOfs 3) 0x8405 {sQ with wqs := [(3, {initing := true, ready := true})]}; (up s = true) ∧
      (bit (wqReg (BitVec.toNat n) 0 s) 15 = true) ∧ (bit v 15 = false) ∧ ((wq (BitVec.toNat n) s).initing = true) ∧
      ((wq (BitVec.toNat n) s).begun = none) ∧ (gdWaits (rgs 1 (wqOfs (BitVec.toNat n) + 1) 2 s) s = false)) ∧
    (let n : QueueNo := 3; let s : State := sQ2; let ks : List Nat := span 0x11000000 16; let ws : List Word := ent 0xA000;
      (up s = true) ∧ (s.mute.contains (BusReq.wq n) = false) ∧ ((wq (BitVec.toNat n) s).ready = true) ∧
      ((wq (BitVec.toNat n) s).polling = true) ∧ ((wq (BitVec.toNat n) s).cache = []) ∧ (2 ≤ wqSize (BitVec.toNat n) s) ∧
      (wqSize (BitVec.toNat n) s ≤ 2 ^ 16) ∧
      (placeRun none none (wqAddr (BitVec.toNat n) (wqCi (BitVec.toNat n) s) s) 16 s = some ks) ∧ (wordsAt ks ws s) ∧
      (bit (nth ws 0) 15 = true) ∧
      (∃ ks' ws', placeRun none none (wqAddr (BitVec.toNat n) ((wqCi (BitVec.toNat n) s + 1) % wqSize (BitVec.toNat n) s) s) 16 s = some ks' ∧ wordsAt ks' ws' s ∧ bit (nth ws' 0) 15 = false)) ∧
    (let n : QueueNo := 3; let v : Word := 2;
      let s : State := {sQ2 with wqs := [(3, {ready := true, cache := [(1,[]),(2,[]),(3,[])]})]};
      let pre : List (Nat × List Word) := [(1,([]: List Word))]; let e : Nat × List Word := (2,([] : List Word));
      let rest : List (Nat × List Word) := [(3,([] : List Word))]; (up s = true) ∧
      ((wq (BitVec.toNat n) s).cache = pre ++ e :: rest) ∧ (e.fst = BitVec.toNat v) ∧
      (∀ (y : Nat × List Word), y ∈ pre → y.fst ≠ BitVec.toNat v) ∧ (pre ≠ []) ∧
      (BitVec.toNat v < wqSize (BitVec.toNat n) s)) ∧
    (let n : QueueNo := 3; let s : State := ansOn {sQ2 with wqs := [(3, {ready := true, cache := [(15, ent 0xA000)]})]};
      let i : Nat := 15; let ws : List Word := ent 0xA000; (up s = true) ∧ ((wq (BitVec.toNat n) s).cache = [(i, ws)]) ∧
      ((wq (BitVec.toNat n) s).begun = none) ∧ (wqTurn (BitVec.toNat n) s = true) ∧
      ((wq (BitVec.toNat n) s).remote = false) ∧ ((wq (BitVec.toNat n) s).answer = none) ∧
      (wqMayPost (BitVec.toNat n) s = true) ∧ (nth ws 1 = wqReg (BitVec.toNat n) 5 s) ∧ (wqFieldsOk ws = true) ∧
      (fld (nth ws 0) 14 12 = 2)) := by
  refine ⟨⟨?_, ?_, ?_, ?_, ?_, ?_, ?_, ?_, ?_, fun w r h => ?_, ?_⟩, ?_, ⟨?_, ?_, ?_, ?_, ?_, ?_, ?_, ?_, ?_, ?_,
    span 0x11000010 16, List.replicate 16 0, ?_, ?_, ?_⟩, ?_, ?_⟩
  case refine_10 => exact Waiter.noConfusion (List.cons.inj h).1
  all_goals first | decide +kernel | (simp only [wordsAt]; decide +kernel)

theorem witness_FaultControl :
    (let blk : BlkNo := 0x20; let i : BitVec 4 := 2; let v : Word := 4; let k : StokerNo := 9;
      let s : State := {setRg 0x20 0x7004 0xFFFF (setRg 0x20 (fltOfs 2 0) 0x2820 sFl) with flts := [(0x20*16+2, {timerOn := true, level := 1, winOpen := true})]};
      (up s = true) ∧ ((fltSources (blkOf (BitVec.toNat blk))).contains i.toNat = true) ∧ (bit v i.toNat = true) ∧
      (bit (rg (BitVec.toNat blk) 28675 s) i.toNat = false) ∧ ((flt (16 * BitVec.toNat blk + i.toNat) s).timerOn = true) ∧
      (bit (rg (BitVec.toNat blk) 28676 s) i.toNat = true) ∧ (bit (rg (BitVec.toNat blk) 28677 s) 0 = false) ∧
      ((flt (16 * BitVec.toNat blk + i.toNat) s).level = 1) ∧ (2 ≤ fld (rg (BitVec.toNat blk) (fltOfs i.toNat 0) s) 12 10) ∧
      ((flt (16 * BitVec.toNat blk + i.toNat) s).winOpen = true) ∧ (stkHeld (BitVec.toNat k) s = false) ∧
      (stkRetired (BitVec.toNat k) s = false) ∧ (stkInReset (BitVec.toNat k) s = false) ∧
      (s.fc.inReset.contains (1, BitVec.toNat k) = false)) ∧
    (let src : Src := .i3c; let blk : BlkNo := 0x20; let i : BitVec 4 := 2; let v : Word := 0x4240; let hi : Word := 15;
      let rf : Bool := false; let s : State := {sB with staged := [(stageKey .i3c (ra 6 2), 15)]}; (up s = true) ∧
      (v &&& srcMask (BitVec.toNat blk) &&& ~~~rg (BitVec.toNat blk) 28675 s = 0) ∧
      (List.find? (fun kv => kv.fst == stageKey src (ra 6 2)) s.staged = some (stageKey src (ra 6 2), hi)) ∧
      (100 ≤ BitVec.toNat hi * 65536 + BitVec.toNat v) ∧ (BitVec.toNat hi * 65536 + BitVec.toNat v ≤ 1000000) ∧
      ((fltSources (blkOf (BitVec.toNat blk))).contains i.toNat = true) ∧ (masked (BitVec.toNat blk) i.toNat s = false) ∧
      (bit (rg (BitVec.toNat blk) 28674 s) i.toNat = true) ∧ (bit (rg (BitVec.toNat blk) 28676 s) i.toNat = false) ∧
      (classPending (BitVec.toNat blk) i.toNat (fld (rg (BitVec.toNat blk) (fltOfs i.toNat 0) s) 7 4) s = none) ∧
      (rf = false) ∧ ((flt (16 * BitVec.toNat blk + i.toNat) s).winOpen = false) ∧
      (fld (rg (BitVec.toNat blk) (fltOfs i.toNat 0) s) 15 13 = 1) ∧
      (1 ≤ fld (rg (BitVec.toNat blk) (fltOfs i.toNat 0) s) 12 10) ∧
      (1 ≤ fld (rg 6 (16 + 2 * fld (rg (BitVec.toNat blk) (fltOfs i.toNat 0) s) 7 4) s) 7 0)) ∧
    (let k : StokerNo := 9; let s : State := {sB with fc := {sB.fc with inReset := [(1,9), (1,8)], shadows := [(1,9)]}};
      (up s = true) ∧ (s.fc.inReset.contains (1, BitVec.toNat k) = true)) ∧
    (let blk : BlkNo := 0x20; let i : BitVec 4 := 2; let s : State := setRg 0x20 0x7002 0 sB; (up s = true) ∧
      ((fltSources (blkOf (BitVec.toNat blk))).contains i.toNat = true) ∧ (masked (BitVec.toNat blk) i.toNat s = false) ∧
      (bit (rg (BitVec.toNat blk) 28674 s) i.toNat = false)) := by
  refine ⟨?_, ?_, ?_, ?_⟩
  all_goals decide +kernel

theorem witness_SootAndSelfTest :
    (let v : Word := 0x2040; let s : State := sSo; let r : Soot := ({w0 := 1, w1 := 2, dtb := 0x123456789} : Soot);
      let rest : List Soot := []; (up s = true) ∧ (s.fc.soot = r :: rest) ∧ (s.pwr.emberOk = true) ∧
      (s.fc.test.st ≠ StSt.running) ∧ (s.fc.test.st ≠ StSt.deferred) ∧ (fld v 15 12 ≠ 6) ∧
      (testServes (fld v 15 12) (blkOf (fld v 11 0)) = true) ∧ (ownsActive (blkOf (fld v 11 0)) s = false)) ∧
    (let s : State := {sB with ft := {sB.ft with running := true}, fc := {sB.fc with test := {st := .running, kind := 3, blk := 0x100}}, grates := (List.range 64).map fun g => (g, {calAge := 70000})};
      (up s = true) ∧ (s.fc.test.st = StSt.running) ∧ (s.ft.running = true) ∧ (s.ft.inAsh = false)) ∧
    (let s : State := {sB with ft := {sB.ft with inAsh := true, running := true}, fc := {sB.fc with test := {st := .deferred, kind := 2, blk := 0x40}}};
      (up s = true) ∧ (s.fc.test.st = StSt.deferred) ∧ (s.fc.test.kind ≠ 6) ∧ (s.ft.inAsh = true) ∧
      (s.fc.test.steps < testSteps s.fc.test.kind.toNat) ∧
      (ashCond s.fc.test.kind.toNat (blkOf (BitVec.toNat s.fc.test.blk)) s = false) ∧ (s.fc.test.skipped < 15)) ∧
    (let s : State := setRg 6 0x101 0xFFFF {sB with ft := {sB.ft with inAsh := true, running := true}, fc := {sB.fc with test := {st := .deferred, kind := 1, blk := 0x100}}};
      (up s = true) ∧ (s.fc.test.st = StSt.deferred) ∧ (s.fc.test.kind ≠ 6) ∧ (s.ft.inAsh = true) ∧
      (s.fc.test.steps < testSteps s.fc.test.kind.toNat) ∧
      (ashCond s.fc.test.kind.toNat (blkOf (BitVec.toNat s.fc.test.blk)) s = true)) := by
  refine ⟨?_, ?_, ?_, ?_⟩
  all_goals decide +kernel

theorem witness_PowerAndScan :
    (let mv : List Word := List.replicate 7 1000; let vio : List Word := List.replicate 16 5;
      let ts : List Word := List.replicate 8 20;
      let s : State := {sB with mem := [(0x22000000,4), (0x3FFFFFFF,5)], marks := [(4,1)]}; let b : Nat := 0x40000001;
      (1073741824 ≤ b) ∧ (s.pwr.resetN = true) ∧ (up s = true) ∧ (mv.length = 7) ∧ (vio.length = 16) ∧ (ts.length = 8) ∧
      (∀ (t : Word), t ∈ ts → sx 16 (BitVec.toNat t) ≤ gradeMax)) ∧
    (let safeN : Bool := true; let s : State := s0; let k : Nat := 0x1FFFFFFF; (s.pwr.resetN = true) ∧
      (s.pwr.railLow = false) ∧ (s.pwr.pll = false) ∧ (s.pwr.tbLost = false) ∧ (s.pwr.safeN = true) ∧ (k < 536870912) ∧
      (s.pwr.emberOk = true)) ∧
    (let slot : BitVec 2 := 1; let s : State := {s0 with pwr := {s0.pwr with resetN := false}}; (s.pwr.resetN = false) ∧
      ((List.any s.tap.keys fun kv => kv.fst == slot.toNat) = false)) ∧
    (let ts : List Word := [0,0,0,30000,0,0,0,0];
      let s : State := {sB with mem := [(0x22000000,4), (0x3FFFFFFF,5)], marks := [(4,1)]}; (up s = true) ∧ (ts.length = 8) ∧
      (s.pwr.hot = false) ∧ (∃ t, t ∈ ts ∧ gradeMax < sx 16 (BitVec.toNat t))) := by
  refine ⟨?_, ?_, ?_, ?_⟩
  · refine ⟨Nat.le_of_ble_eq_true rfl, rfl, rfl, rfl, rfl, rfl, fun t ht => ?_⟩
    rw [List.eq_of_mem_replicate ht]
    exact Int.le_trans (by decide) gradeMax_bounds.1
  · decide +kernel
  · decide +kernel
  · refine ⟨rfl, rfl, rfl, 30000, ?_, Int.lt_of_le_of_lt gradeMax_bounds.2 (by decide)⟩
    exact .tail _ (.tail _ (.tail _ (.head _)))

theorem witness_BootLoader :
    (let src : Src := .i3c;
      let s : State := {sB with boot := {sB.boot with stage := 9, pushing := true, pushSrc := some (srcNo .i3c)}};
      (up s = true) ∧ (s.boot.stage = 9 ∨ s.boot.stage = 10) ∧ (s.boot.stage = 9) ∧ (s.boot.pushSrc = some (srcNo src)) ∧
      (s.boot.pushed = []) ∧ (s.boot.img.length < 63) ∧ (s.boot.pushing = true)) ∧
    (let inf : BootInfo := {katOk := true, flashOk := false, octal := true, capWords := 0x1000, words := []};
      let s : State := {sB with boot := {sB.boot with stage := 1}}; (up s = true) ∧ (s.boot.stage = 1) ∧
      (inf.katOk = true) ∧ (s.boot.src.toNat < 2) ∧ (s.boot.stage ≠ 9) ∧ (s.boot.stage ≠ 10)) ∧
    (let inf : BootInfo := {katOk := true, flashOk := false, octal := true, capWords := 0x1000, words := []};
      let s : State := {sB with boot := {sB.boot with stage := 2}}; (up s = true) ∧ (s.boot.stage = 2) ∧
      (inf.flashOk = false) ∧ (s.boot.pushing = false) ∧ (s.boot.fallback = false) ∧ (s.boot.bankB = false) ∧
      (s.pwr.safeN = true)) ∧
    (let s : State := {sB with boot := {sB.boot with stage := 3, pushing := true}}; (up s = true) ∧ (s.boot.stage = 3) ∧
      (keyOk s.boot.img s = false) ∧ (s.boot.pushing = true) ∧ (s.pwr.safeN = true)) ∧
    (let s : State := {sB with boot := {sB.boot with stage := 5}}; (up s = true) ∧ (s.boot.stage = 5) ∧
      (s.boot.recNo = imgNrec s.boot.img)) ∧
    (let s : State := {sB with boot := {sB.boot with stage := 10}}; (up s = true) ∧ (s.boot.stage = 10)) ∧
    (let inf : BootInfo := {katOk := true, flashOk := true, octal := true, capWords := 0x1000, words := [0x4B49, 0x4E44, 1, 0, 0, 0, 1, 0, 2000]};
      let s : State := {sB with boot := {sB.boot with stage := 2}}; (up s = true) ∧ (s.boot.stage = 2) ∧
      (inf.flashOk = true) ∧ (headerOk inf.words (inf.capWords / 2) = true)) ∧
    (let data : List Word := [1,2];
      let s : State := {sB with boot := {sB.boot with stage := 5, img := (List.range 90).map fun i => if i == 6 then 1 else if i == 68 then 9 else 0}};
      (up s = true) ∧ (s.boot.stage = 5) ∧ (s.boot.recNo ≠ imgNrec s.boot.img) ∧ (s.boot.pushing = false) ∧
      (entIsReg (dirEnt s.boot.img s.boot.recNo) = true) ∧
      (s.boot.rec_.length + data.length < entLen (dirEnt s.boot.img s.boot.recNo))) := by
  refine ⟨?_, ?_, ?_, ?_, ?_, ?_, ?_, ?_⟩
  all_goals decide +kernel

theorem witness_EmberAndQuotes :
    (let s : State := sIdx2; let k : Nat := 3; let e : Nat := 9; (up s = true) ∧ (embAddr s < 65536) ∧
      (idxNewest s = some (k, e)) ∧ (quoteRuns s = true) ∧ (s.sec.signing = true) ∧ (s.sec.next < 2 ^ 40) ∧
      (s.sec.words.length = 72)) ∧
    (let s : State := setRgs 5 1 [1,0] sIdx; (up s = true) ∧ (65536 ≤ embAddr s)) ∧
    (let n : BitVec 5 := 3; let s : State := setRg 4 0 0x4000 {sB with sec := {sB.sec with katOk := true, next := 0}};
      (up s = true) ∧ (1 ≤ n.toNat) ∧ (n.toNat ≤ 16) ∧ (quoteRuns s = false) ∧ (s.sec.katOk = true) ∧
      (bit (rg 4 0 s) 14 = true) ∧ (s.sec.next < 2 ^ 40)) ∧
    (let s : State := {sB with sec := {sB.sec with state := 1}}; (up s = true) ∧ (quoteRuns s = true) ∧
      (s.sec.signing = false) ∧ (s.sec.cfgGen = s.sec.g0)) := by
  refine ⟨?_, ?_, ?_, ?_⟩
  all_goals decide +kernel

theorem witness_RegisterWrites :
    (let s : State := sB; (up s = true) ∧ (booted s = true)) := by
  all_goals decide +kernel

theorem witness_StepRunsFront :
    (let s : State := State.reset; (s.pending = []) ∧ (s.due = []) ∧ (up s = false ∨ s.pwr.tbLost = true)) ∧
    (let s : State := {sB with pending := [], ft := {sB.ft with slew := 0}}; (s.pending = []) ∧ (s.due = []) ∧
      (up s = true) ∧ (s.pwr.tbLost = false)) := by
  refine ⟨?_, ?_⟩
  all_goals decide +kernel

/-- `tick` is none of the commands that the statement leaves out. -/
theorem witness_NothingRunsInReset : up State.reset = false := by decide

/-- A waiting command, well formed, that the next step takes. -/
theorem witness_QueueStaysWellFormed :
    QueueWf { sB with pending := [.tick] } ∧ ∃ t, step { sB with pending := [.tick] } = .next t :=
  ⟨rfl, _, rfl⟩

theorem witness_MemoryStaysCanonical :
    Memory.wf (memPut 0x11000000 5 { sB with pending := [.tick] }).mem = true ∧
      ∃ t, step (memPut 0x11000000 5 { sB with pending := [.tick] }) = .next t :=
  ⟨by decide +kernel, _, rfl⟩

theorem witness_InstructionRoundTrip :
    (Instr.add { sub := 0, rep := .rep 255, wide := true, noflag := true, bank := some 3 } 14 (.mem (.ind 7))).wf = true ∧
      prefixes { sub := 0, rep := .rep 255, wide := true, noflag := true, bank := some 3 } ≤ 4 ∧
      (encodeIns (.add { sub := 0, rep := .rep 255, wide := true, noflag := true, bank := some 3 } 14 (.mem (.ind 7)))).isSome = true ∧
      (encBody (.add { sub := 0, rep := .rep 255, wide := true, noflag := true, bank := some 3 } 14 (.mem (.ind 7)))).isSome = true := by
  decide +kernel

theorem witness_MicrowordRoundTrip : ({ imm := 1 } : Micro).parityOk = true ∧ (0x20 : BitVec 6).toNat ≤ 0x20 := by
  decide

end Sys2Proof.Tests
end

/-! Proofs for the firing frame's family: the frame timer (O15 to O17), supplies and the scan port (O49), the step (O53,
O55) and the state after reset (O58). First the laws of registers, of the note of a configuration write and of the frame
timer; each command then has its equation, and the statements are put together from those. -/
section
namespace Sys2Proof.Proofs.FiringFrame
open Sys2Proof Sys2Proof.Machine

/-! ### Lists, words and combinators -/

theorem mem_span {a k n : Nat} : n ∈ span a k ↔ a ≤ n ∧ n < a + k := by
  induction k generalizing a with
  | zero => simp [span]
  | succ k ih => rw [span, List.mem_cons, ih]; omega

theorem length_wordsOf (m v : Nat) : (wordsOf m v).length = m := by
  induction m with
  | zero => rfl
  | succ m ih => rw [wordsOf, List.length_cons, ih]

theorem valOf_wordsOf_two (n : Nat) : valOf (wordsOf 2 n) = n % 2 ^ 32 := by
  simp only [wordsOf, valOf_pair, wd, BitVec.toNat_ofNat, Nat.shiftRight_eq_div_pow]
  omega

@[simp] theorem bit_setBit_true (w : Word) {i : Nat} (h : i < 16) : bit (setBit w i true) i = true := by
  simp [bit, setBit, BitVec.getLsbD_ofNat, h, Nat.testBit_shiftLeft]

/-- A field that each step of a sweep leaves as it is, the sweep leaves as it is. -/
theorem forAll_field {β : Type} (g : State → β) {f : Nat → State → State} (hf : ∀ n t, g (f n t) = g t) (ns : List Nat)
    (s : State) : g (forAll ns f s) = g s :=
  forAll_keeps (fun t => g t = g s) (fun n t h => (hf n t).trans h) ns rfl

theorem doIf_field {β : Type} (g : State → β) (b : Bool) {f : State → State} (hf : ∀ t, g (f t) = g t) (s : State) :
    g (doIf b f s) = g s := doIf_keeps (fun t => g t = g s) b (fun h => (hf _).trans h) rfl

/-! ### Registers -/

/-- A register is the same in two states whose registers are. -/
theorem rg_congr {s t : State} (h : s.regs = t.regs) (n o : Nat) : rg n o s = rg n o t := by
  simp only [rg, reg, h]

/-- Registers of two blocks are apart. -/
theorem rg_setRg_block {n m o p : Nat} (v : Word) (s : State) (hnm : m ≠ n) (ho : o < 65536) (hp : p < 65536) :
    rg m p (setRg n o v s) = rg m p s :=
  rg_setRg_ne v s fun h => hnm (ra_inj ho hp h).1

/-- A run of register writes changes the registers alone. -/
theorem setRgs_eq (n o : Nat) (ws : List Word) (s : State) :
    setRgs n o ws s = { s with regs := (setRgs n o ws s).regs } := by
  induction ws generalizing o s with
  | nil => rfl
  | cons w ws ih => exact ih (o + 1) { s with regs := mset (regReset (ra n o)) (ra n o) w s.regs }

@[simp] theorem setRgs_due (n o : Nat) (ws : List Word) (s : State) : (setRgs n o ws s).due = s.due := by rw [setRgs_eq]

/-- A register of another block is as it was. -/
theorem rg_setRgs_block {n m o p : Nat} (ws : List Word) (s : State) (hnm : m ≠ n) (hp : p < 65536)
    (ho : o + ws.length ≤ 65536) : rg m p (setRgs n o ws s) = rg m p s := by
  induction ws generalizing o s with
  | nil => rfl
  | cons w ws ih =>
    have hlen : o + 1 + ws.length ≤ 65536 := by simpa [Nat.add_assoc, Nat.add_comm 1] using ho
    rw [setRgs, ih _ hlen]
    exact rg_setRg_ne w s fun h => hnm (ra_inj (by omega) hp h).1

/-- A register of the block outside the run is as it was. -/
theorem rg_setRgs_outside {n o p : Nat} (ws : List Word) (s : State) (hp : p < o ∨ o + ws.length ≤ p) :
    rg n p (setRgs n o ws s) = rg n p s := by
  induction ws generalizing o s with
  | nil => rfl
  | cons w ws ih =>
    rw [List.length_cons] at hp
    rw [setRgs, ih _ (by omega)]
    exact rg_setRg_ofs w s (by omega)

/-- The run reads back. -/
theorem map_rg_setRgs (n o : Nat) {m : Nat} {ws : List Word} (h : ws.length = m) (s : State) :
    ((span o m).map fun p => rg n p (setRgs n o ws s)) = ws := by
  subst h
  induction ws generalizing o s with
  | nil => rfl
  | cons w ws ih =>
    rw [List.length_cons, span, List.map_cons, setRgs, ih, rg_setRgs_outside ws _ (.inl (Nat.lt_succ_self o)),
      rg_setRg_same]

/-! ### The note of a configuration write (R371) -/

/-- The note changes the write log's registers and the security engine's counter alone. -/
theorem cfgNote_eq (src : Src) (a : Nat) (v : Word) (s : State) :
    cfgNote src a v s = { s with regs := (cfgNote src a v s).regs, sec := (cfgNote src a v s).sec } := by
  unfold cfgNote
  split
  · rfl
  · exact setRgs_eq _ _ _ _

section
variable (src : Src) (a : Nat) (v : Word) (s : State)
@[simp] theorem cfgNote_ft : (cfgNote src a v s).ft = s.ft := by rw [cfgNote_eq]
@[simp] theorem cfgNote_mem : (cfgNote src a v s).mem = s.mem := by rw [cfgNote_eq]
@[simp] theorem cfgNote_boot : (cfgNote src a v s).boot = s.boot := by rw [cfgNote_eq]
@[simp] theorem cfgNote_staged : (cfgNote src a v s).staged = s.staged := by rw [cfgNote_eq]
@[simp] theorem cfgNote_flues : (cfgNote src a v s).flues = s.flues := by rw [cfgNote_eq]
@[simp] theorem booted_cfgNote : booted (cfgNote src a v s) = booted s := by simp [booted]
end

/-- A register that is not configuration class leaves no note. -/
theorem cfgNote_of_not_cfg (src : Src) {a : Nat} (v : Word) (s : State) (h : isCfg a = false) : cfgNote src a v s = s := by
  simp [cfgNote, h]

/-- A register outside the security engine's block, which holds the write log, is as it was. -/
theorem rg_cfgNote (src : Src) (a : Nat) (v : Word) (s : State) {n o : Nat} (hn : n ≠ 4) (ho : o < 65536) :
    rg n o (cfgNote src a v s) = rg n o s := by
  unfold cfgNote
  split
  · rfl
  · refine (rg_setRgs_block _ _ hn ho ?_).trans rfl
    simp only [List.length_append, length_wordsOf, List.length_cons, List.length_nil]
    omega

/-! ### The frames of the meanings -/

theorem actWrite_down (src : Src) (a : Nat) (v : Word) {s : State} (f : State → State) (h : up s = false) :
    actWrite src a v s f = .next s := act_down _ h

theorem actWrite_up (src : Src) (a : Nat) (v : Word) {s : State} (f : State → State) (h : up s = true) :
    actWrite src a v s f = .next (done s (f (cfgNote src a v s))) := act_up _ h

/-! ### The frame timer's own state -/

section
variable (f : FrameT → FrameT) (s : State)
@[simp] theorem modFt_ft : (modFt f s).ft = f s.ft := rfl
@[simp] theorem modFt_mem : (modFt f s).mem = s.mem := rfl
@[simp] theorem modFt_ctx : (modFt f s).ctx = s.ctx := rfl
@[simp] theorem modFt_sch : (modFt f s).sch = s.sch := rfl
@[simp] theorem modFt_pins : (modFt f s).pins = s.pins := rfl
@[simp] theorem modFt_shadowA : (modFt f s).shadowA = s.shadowA := rfl
@[simp] theorem modFt_shadowB : (modFt f s).shadowB = s.shadowB := rfl
@[simp] theorem modFt_regs : (modFt f s).regs = s.regs := rfl
@[simp] theorem rg_modFt (n o : Nat) : rg n o (modFt f s) = rg n o s := rg_congr (modFt_regs f s) n o
end

/-! ### The DTB -/

/-- DTB_CMD.LOAD with no frame running or awaited loads the DTB (R24). -/
theorem dtbCmd_load {s : State} (hr : s.ft.running = false) (hw : s.ft.waiting = false) :
    dtbCmd 1 s = { s with ft := { s.ft with dtb := rgs 0 0x14 4 s } } := by
  simp [dtbCmd, modFt, hr, hw]

theorem exec_dtbLoad (src : Src) {s : State} (hup : up s = true) (hr : s.ft.running = false) (hw : s.ft.waiting = false) :
    exec (.dtbLoad src 1) s = .next (done s { s with ft := { s.ft with dtb := rgs 0 0x14 4 s } }) := by
  have hcfg : isCfg (ra 0 0x18) = false := by decide
  have hexec : exec (.dtbLoad src 1) s = actWrite src (ra 0 0x18) 1 s (dtbCmd 1) := rfl
  rw [hexec, actWrite_up _ _ _ _ hup, cfgNote_of_not_cfg _ _ _ hcfg, dtbCmd_load hr hw]

theorem onPath_iff (sub : Nat) (s : State) :
    onPath sub s = true ↔ ∃ p, (stk (stkOf sub) s).spec = some p ∧ p.owner = ctxOf sub := by
  unfold onPath specOf
  cases (stk (stkOf sub) s).spec with
  | none => simp
  | some p => by_cases h : p.owner = ctxOf sub <;> simp [h]

/-- Where the source's stoker has no speculative path, the sample goes to the source's holding set (R23). -/
theorem dtbSample_committed (src : Src) {s : State}
    (h : ∀ sub, src = .stoker sub → (stk (stkOf sub.toNat) s).spec = none) :
    dtbSample src s = { s with dtbHold := mset 0 (srcNo src) (BitVec.ofNat 64 s.ft.dtb) s.dtbHold } := by
  cases src with
  | stoker sub => simp [dtbSample, onPath, specOf, h sub rfl]
  | _ => rfl

/-- On a speculative path the sample is the path's own (R85). -/
theorem dtbSample_onPath {sub : Sub} {s : State} (h : onPath sub.toNat s = true) :
    dtbSample (.stoker sub) s = modStk (stkOf sub.toNat)
      (fun x => { x with spec := x.spec.map fun p => { p with hold := some (BitVec.ofNat 64 s.ft.dtb) } }) s := by
  simp [dtbSample, h]

theorem dtbHeld_dtbSample_onPath {sub : Sub} {s : State} (h : onPath sub.toNat s = true) :
    dtbHeld (.stoker sub) (dtbSample (.stoker sub) s) = BitVec.ofNat 64 s.ft.dtb := by
  obtain ⟨p, hp, ho⟩ := (onPath_iff _ _).mp h
  rw [dtbSample_onPath h]
  simp [dtbHeld, specOf, hp, ho]

theorem exec_dtbW0Read (src : Src) {s : State} (hup : up s = true) :
    exec (.dtbW0Read src) s = .next (done s (dtbSample src s)) := act_up (dtbSample src) hup

theorem exec_dtbW0Read_committed (src : Src) {s : State} (hup : up s = true)
    (h : ∀ sub, src = .stoker sub → (stk (stkOf sub.toNat) s).spec = none) :
    exec (.dtbW0Read src) s =
      .next (done s { s with dtbHold := mset 0 (srcNo src) (BitVec.ofNat 64 s.ft.dtb) s.dtbHold }) := by
  rw [exec_dtbW0Read src hup, dtbSample_committed src h]

theorem exec_dtbW0Read_onPath {s : State} (hup : up s = true) (sub : Sub) (h : onPath sub.toNat s = true) :
    ∃ u, exec (.dtbW0Read (.stoker sub)) s = .next (done s u) ∧
      dtbHeld (.stoker sub) u = BitVec.ofNat 64 s.ft.dtb ∧ u.dtbHold = s.dtbHold := by
  refine ⟨_, exec_dtbW0Read (.stoker sub) hup, dtbHeld_dtbSample_onPath h, ?_⟩
  rw [dtbSample_onPath h, modStk_dtbHold]

/-! ### Start and stop of frames -/

/-- RUN with START_SYNC, once boot is over: frames wait for a SYNC_IN pulse (R29). -/
theorem frmCtlWrite_wait {s : State} (hr : s.ft.running = false) (hw : s.ft.waiting = false) (hb : booted s = true) :
    frmCtlWrite (frmCtlWord true true) s = (let t := setRg 0 0 3 s
      { t with ft := { t.ft with
        waiting := true, startSync := true, started := false, stopPending := false, decided := false } }) := by
  have h0 : bit (frmCtlWord true true) 0 = true := by decide
  have h1 : bit (frmCtlWord true true) 1 = true := by decide
  have h3 : frmCtlWord true true &&& 3 = 3 := by decide
  unfold frmCtlWrite
  rw [h3]
  simp [modFt, h0, h1, hr, hw, hb]

/-- RUN cleared while frames run: the stop waits for the end of the frame (R29). -/
theorem frmCtlWrite_stop {s : State} (hr : s.ft.running = true) :
    frmCtlWrite (frmCtlWord false false) s = (let t := setRg 0 0 0 s
      { t with ft := { t.ft with stopPending := true } }) := by
  have h0 : bit (frmCtlWord false false) 0 = false := by decide
  have h3 : frmCtlWord false false &&& 3 = 0 := by decide
  unfold frmCtlWrite
  rw [h3]
  simp [modFt, h0, hr]

theorem exec_frmCtlRunSet (src : Src) {s : State} (hup : up s = true) (hr : s.ft.running = false)
    (hw : s.ft.waiting = false) (hb : booted s = true) :
    exec (.frmCtlRunSet src true) s = .next (done s
      (let t := setRg 0 0 3 (cfgNote src (ra 0 0) 3 s)
       { t with ft := { t.ft with
         waiting := true, startSync := true, started := false, stopPending := false, decided := false } })) := by
  have hexec : exec (.frmCtlRunSet src true) s =
      actWrite src (ra 0 0) 3 s (frmCtlWrite (frmCtlWord true true)) := rfl
  rw [hexec, actWrite_up _ _ _ _ hup, frmCtlWrite_wait (by simpa using hr) (by simpa using hw) (by simpa using hb)]

theorem exec_frmCtlRunClear (src : Src) {s : State} (hup : up s = true) (hr : s.ft.running = true) :
    exec (.frmCtlRunClear src false) s = .next (done s
      (let t := setRg 0 0 0 (cfgNote src (ra 0 0) 0 s); { t with ft := { t.ft with stopPending := true } })) := by
  have hexec : exec (.frmCtlRunClear src false) s =
      actWrite src (ra 0 0) 0 s (frmCtlWrite (frmCtlWord false false)) := rfl
  rw [hexec, actWrite_up _ _ _ _ hup, frmCtlWrite_stop (by simpa using hr)]

/-- What the end of a frame leaves as it is, one field at a time: it writes stokers, contexts and registers. -/
theorem frameOver_field {β : Type} (g : State → β) (hstk : ∀ k f t, g (modStk k f t) = g t)
    (hctx : ∀ k f t, g (modCtx k f t) = g t) (hrg : ∀ n o v t, g (setRg n o v t) = g t) (s : State) :
    g (frameOver s) = g s := by
  unfold frameOver
  exact (forAll_field g (fun n t => hctx _ _ _) _ _).trans
    (forAll_field g (fun n t => (hstk _ _ _).trans (hrg _ _ _ _)) _ _)

@[simp] theorem frameOver_ft (s : State) : (frameOver s).ft = s.ft :=
  frameOver_field State.ft modStk_ft modCtx_ft setRg_ft s
@[simp] theorem frameOver_mem (s : State) : (frameOver s).mem = s.mem :=
  frameOver_field State.mem modStk_mem modCtx_mem setRg_mem s
@[simp] theorem frameOver_sch (s : State) : (frameOver s).sch = s.sch :=
  frameOver_field State.sch modStk_sch modCtx_sch setRg_sch s
@[simp] theorem frameOver_pins (s : State) : (frameOver s).pins = s.pins :=
  frameOver_field State.pins modStk_pins modCtx_pins setRg_pins s
@[simp] theorem frameOver_shadowA (s : State) : (frameOver s).shadowA = s.shadowA :=
  frameOver_field State.shadowA modStk_shadowA modCtx_shadowA setRg_shadowA s
@[simp] theorem frameOver_shadowB (s : State) : (frameOver s).shadowB = s.shadowB :=
  frameOver_field State.shadowB modStk_shadowB modCtx_shadowB setRg_shadowB s

/-- The frame with a stop pending ends (R29). -/
theorem frameStop_pending {s : State} (hr : s.ft.running = true) (hs : s.ft.stopPending = true) :
    frameStop s = modFt (fun f => { f with
      running := false, stopPending := false, decided := false, started := false, inAsh := false
      captured := false, earlyE := none, dtb := max f.dtb f.nextTick }) (frameOver s) := by
  simp [frameStop, hr, hs]

theorem exec_frameStopComplete {s : State} (hup : up s = true) (hr : s.ft.running = true) (hs : s.ft.stopPending = true) :
    ∃ u, exec .frameStopComplete s = .next (done s u) ∧
      u.ft.running = false ∧ u.ft.stopPending = false ∧ u.ft.frmNum = s.ft.frmNum ∧ u.mem = s.mem ∧ u.sch = s.sch ∧
      u.pins = s.pins := by
  refine ⟨frameStop s, act_up frameStop hup, ?_⟩
  rw [frameStop_pending hr hs]
  simp [modFt]

/-! ### Timing registers -/

theorem exec_frmPeriodHiWrite (src : Src) (v : Word) {s : State} (hup : up s = true) :
    exec (.frmPeriodHiWrite src v) s = .next (done s (stageHigh src (ra 0 2) v (cfgNote src (ra 0 2) v s))) := by
  have hexec : exec (.frmPeriodHiWrite src v) s = actWrite src (ra 0 2) v s (stageHigh src (ra 0 2) v) := rfl
  rw [hexec, actWrite_up _ _ _ _ hup]

theorem stageTake_none {src : Src} {a : Nat} (last : Word) {s : State}
    (h : (s.staged.find? fun kv => kv.1 == stageKey src a) = none) : stageTake src a last s = (last, s) := by
  simp [stageTake, h]

theorem stageTake_some {src : Src} {a k : Nat} {w : Word} (last : Word) {s : State}
    (h : (s.staged.find? fun kv => kv.1 == stageKey src a) = some (k, w)) :
    stageTake src a last s = (w, { s with staged := merase (stageKey src a) s.staged }) := by
  simp [stageTake, h]

/-- A write of FRM_PERIOD_LO commits a period of 125 or more, with the high byte that `stageTake` gives (R26, R391). -/
theorem periodLo_of_legal {src : Src} {v w : Word} {s t : State} (ht : stageTake src (ra 0 2) s.ft.commitHi s = (w, t))
    (hp : 125 ≤ fld w 7 0 * 65536 + v.toNat) :
    periodLo src v s = { t with ft := { t.ft with
      pendPeriod := some (fld w 7 0 * 65536 + v.toNat), commitHi := wd (fld w 7 0) } } := by
  have hn : ¬ fld w 7 0 * 65536 + v.toNat < 125 := by omega
  simp [periodLo, ht, hn, modFt]

theorem exec_frmPeriodLoWrite_unstaged (src : Src) {v : Word} {s : State} (hup : up s = true)
    (hf : (s.staged.find? fun kv => kv.1 == stageKey src (ra 0 2)) = none)
    (hp : 125 ≤ fld s.ft.commitHi 7 0 * 65536 + v.toNat) :
    exec (.frmPeriodLoWrite src v) s = .next (done s
      (let t := cfgNote src (ra 0 3) v s
       { t with ft := { t.ft with
         pendPeriod := some (fld s.ft.commitHi 7 0 * 65536 + v.toNat), commitHi := wd (fld s.ft.commitHi 7 0) } })) := by
  have hexec : exec (.frmPeriodLoWrite src v) s = actWrite src (ra 0 3) v s (periodLo src v) := rfl
  have hst := stageTake_none (src := src) (a := ra 0 2) s.ft.commitHi (s := cfgNote src (ra 0 3) v s) (by simpa using hf)
  rw [hexec, actWrite_up _ _ _ _ hup, periodLo_of_legal (by simpa using hst) hp]

theorem exec_frmPeriodLoWrite_staged (src : Src) {v h : Word} {s : State} (hup : up s = true)
    (hf : (s.staged.find? fun kv => kv.1 == stageKey src (ra 0 2)) = some (stageKey src (ra 0 2), h))
    (hp : 125 ≤ fld h 7 0 * 65536 + v.toNat) :
    ∃ u, exec (.frmPeriodLoWrite src v) s = .next (done s u) ∧
      u.ft = { s.ft with pendPeriod := some (fld h 7 0 * 65536 + v.toNat), commitHi := wd (fld h 7 0) } ∧
      u.staged = merase (stageKey src (ra 0 2)) s.staged := by
  have hexec : exec (.frmPeriodLoWrite src v) s = actWrite src (ra 0 3) v s (periodLo src v) := rfl
  have hst := stageTake_some (src := src) (a := ra 0 2) s.ft.commitHi (s := cfgNote src (ra 0 3) v s) (by simpa using hf)
  refine ⟨_, hexec.trans (actWrite_up _ _ _ _ hup), ?_⟩
  rw [periodLo_of_legal (by simpa using hst) hp]
  simp

/-- A write of ASH_NS of 256 or more waits for the tick decision (R27, R28). -/
theorem ashWrite_of_legal {v : Word} {s : State} (h : 256 ≤ (v &&& 0xFFF8).toNat) :
    ashWrite v s = { s with ft := { s.ft with pendAsh := some (v &&& 0xFFF8) } } := by
  simp only [ashWrite, modFt, if_neg (Nat.not_lt.mpr h)]

theorem exec_ashNsWrite (src : Src) {v : Word} {s : State} (hup : up s = true) (h : 256 ≤ (v &&& 0xFFF8).toNat) :
    exec (.ashNsWrite src v) s = .next (done s
      (let t := cfgNote src (ra 0 4) v s; { t with ft := { t.ft with pendAsh := some (v &&& 0xFFF8) } })) := by
  have hexec : exec (.ashNsWrite src v) s = actWrite src (ra 0 4) v s (ashWrite v) := rfl
  rw [hexec, actWrite_up _ _ _ _ hup, ashWrite_of_legal h]

/-- A write of SYNC_CTL with a legal SYNC_K and SYNC_EN = 0 (R27, R34). -/
theorem syncCtlWrite_off {v : Word} {s : State} (h0 : bit v 0 = false) (h4 : 4 ≤ fld v 7 4) (h10 : fld v 7 4 ≤ 10) :
    syncCtlWrite v s = modFt (fun f => { f with pendK := some (BitVec.ofNat 4 (fld v 7 4)), sync := .off })
      (setRg 0 5 ((rg 0 5 s &&& 0xFFF8) ||| (v &&& 7)) s) := by
  simp [syncCtlWrite, modFt, h0, h4, h10]

theorem exec_syncCtlWrite_off (src : Src) {v : Word} {s : State} (hup : up s = true) (h0 : bit v 0 = false)
    (h4 : 4 ≤ fld v 7 4) (h10 : fld v 7 4 ≤ 10) :
    ∃ u, exec (.syncCtlWrite src v) s = .next (done s u) ∧
      u.ft = { s.ft with pendK := some (BitVec.ofNat 4 (fld v 7 4)), sync := .off } ∧
      rg 0 5 u = (rg 0 5 s &&& 0xFFF8) ||| (v &&& 7) := by
  refine ⟨_, actWrite_up src (ra 0 5) v (syncCtlWrite v) hup, ?_⟩
  rw [syncCtlWrite_off h0 h4 h10, rg_cfgNote _ _ _ _ (by decide) (by decide)]
  exact ⟨by simp, by rw [rg_modFt, rg_setRg_same]⟩

/-! ### The tick decision -/

/-- The decision with no schedule table and an ash slot within its limits: the waiting timing comes into force (R40). -/
theorem decide40_of_no_tables {s : State} (hs : schedStokers s = [])
    (hlo : 256 ≤ (s.ft.pendAsh.map fun a => a.toNat).getD s.ft.ash)
    (hhi : 2 * (s.ft.pendAsh.map fun a => a.toNat).getD s.ft.ash ≤ 8 * s.ft.pendPeriod.getD s.ft.period) :
    decide40 false s = modFt (fun g => { g with pendPeriod := none, pendAsh := none, pendK := none, decided := true })
      (applyTiming (s.ft.pendPeriod.getD s.ft.period) ((s.ft.pendAsh.map fun a => a.toNat).getD s.ft.ash)
        ((s.ft.pendK.map fun a => a.toNat).getD s.ft.k) s) := by
  simp [decide40, hs, hlo, hhi]

theorem tickDecision_running {s : State} (hr : s.ft.running = true) (ha : s.ft.inAsh = true)
    (hp : s.ft.stopPending = false) (hd : s.ft.decided = false) : tickDecision s = decide40 false s := by
  simp [tickDecision, hr, ha, hp, hd]

@[simp] theorem applyTiming_ft (period ash k : Nat) (s : State) :
    (applyTiming period ash k s).ft = { s.ft with period := period, ash := ash, k := k } := rfl
@[simp] theorem applyTiming_mem (period ash k : Nat) (s : State) : (applyTiming period ash k s).mem = s.mem := by
  simp [applyTiming, setRgFld]
@[simp] theorem applyTiming_ctx (period ash k : Nat) (s : State) : (applyTiming period ash k s).ctx = s.ctx := by
  simp [applyTiming, setRgFld]
@[simp] theorem applyTiming_sch (period ash k : Nat) (s : State) : (applyTiming period ash k s).sch = s.sch := by
  simp [applyTiming, setRgFld]

theorem exec_tickDecision {s : State} (hup : up s = true) (hr : s.ft.running = true) (ha : s.ft.inAsh = true)
    (hp : s.ft.stopPending = false) (hd : s.ft.decided = false) (hs : schedStokers s = [])
    (hlo : 256 ≤ (s.ft.pendAsh.map fun a => a.toNat).getD s.ft.ash)
    (hhi : 2 * (s.ft.pendAsh.map fun a => a.toNat).getD s.ft.ash ≤ 8 * s.ft.pendPeriod.getD s.ft.period) :
    ∃ u, exec .tickDecision s = .next (done s u) ∧ u.ft.period = s.ft.pendPeriod.getD s.ft.period ∧
      u.ft.ash = (s.ft.pendAsh.map fun a => a.toNat).getD s.ft.ash ∧
      u.ft.k = (s.ft.pendK.map fun a => a.toNat).getD s.ft.k ∧
      u.ft.pendPeriod = none ∧ u.ft.pendAsh = none ∧ u.ft.pendK = none ∧ u.ft.decided = true ∧
      u.ft.dtb = s.ft.dtb ∧ u.mem = s.mem ∧ u.ctx = s.ctx ∧ u.sch = s.sch := by
  refine ⟨tickDecision s, act_up tickDecision hup, ?_⟩
  rw [tickDecision_running hr ha hp hd, decide40_of_no_tables hs hlo hhi]
  simp [modFt]

/-! ### SYNC_OUT and the counters' copies -/

theorem exec_syncOutPulseEnd {s : State} (hup : up s = true) :
    exec .syncOutPulseEnd s = .next (done s { s with ft := { s.ft with syncOut := false } }) :=
  act_up (modFt fun f => { f with syncOut := false }) hup

/-- The shadows switch once a tick (R44). -/
theorem shadowSwitch_due {s : State} (h : s.ft.snapDue = true) : shadowSwitch s = { s with
    ft := { s.ft with snapDue := false, snapFrame := s.ft.frmNum.setWidth 16 }, shadowSel := !s.shadowSel } := by
  simp [shadowSwitch, h, modFt]

theorem exec_shadowSwitch {s : State} (hup : up s = true) (h : s.ft.snapDue = true) :
    exec .shadowSwitch s = .next (done s { s with
      ft := { s.ft with snapDue := false, snapFrame := s.ft.frmNum.setWidth 16 }, shadowSel := !s.shadowSel }) := by
  have hexec : exec .shadowSwitch s = .next (done s (shadowSwitch s)) := act_up shadowSwitch hup
  rw [hexec, shadowSwitch_due h]

/-! ### Schedule tables -/

theorem slotOfs_add_lt (tb : Bool) (e : BitVec 5) (w : BitVec 2) :
    0x500 ≤ slotOfs tb e.toNat + w.toNat ∧ slotOfs tb e.toNat + w.toNat < 0x600 := by
  unfold slotOfs
  split <;> omega

theorem tableLocked_iff (k : Nat) (tb : Bool) (s : State) :
    tableLocked k tb s = true ↔
      (s.ft.running = true ∨ s.ft.waiting = true ∧ s.ft.started = true) ∧ activeB k s = tb := by
  simp [tableLocked]

theorem activeB_cfgNote (k : Nat) (src : Src) (a : Nat) (v : Word) (s : State) :
    activeB k (cfgNote src a v s) = activeB k s := by
  unfold activeB
  rw [rg_cfgNote _ _ _ _ (by unfold bStk; omega) (by decide)]

@[simp] theorem tableLocked_cfgNote (k : Nat) (tb : Bool) (src : Src) (a : Nat) (v : Word) (s : State) :
    tableLocked k tb (cfgNote src a v s) = tableLocked k tb s := by
  simp only [tableLocked, cfgNote_ft, activeB_cfgNote]

theorem slotTableWrite_locked {k : Nat} {tb : Bool} {s : State} (e w : Nat) (v : Word) (h : tableLocked k tb s = true) :
    slotTableWrite k tb e w v s = setRgBit (bStk k) 0x401 6 true s := if_pos h

theorem slotTableWrite_free {k : Nat} {tb : Bool} {s : State} (e w : Nat) (v : Word) (h : tableLocked k tb s = false) :
    slotTableWrite k tb e w v s =
      setRg (bStk k) (slotOfs tb e + w) (if w = 0 then v &&& 0x800F else v) s := if_neg (by simp [h])

/-- What SLOT_WRITE leaves while its table may not be written (R41). -/
theorem exec_slotWrite_locked (src : Src) (k : StokerNo) {tb : Bool} (e : BitVec 5) (w : BitVec 2) (v : Word) {s : State}
    (hup : up s = true) (h : tableLocked k.toNat tb s = true) :
    exec (.slotWrite src k tb e w v) s = .next (done s (setRgBit (bStk k.toNat) 0x401 6 true
      (cfgNote src (ra (bStk k.toNat) (slotOfs tb e.toNat + w.toNat)) v s))) := by
  have hexec : exec (.slotWrite src k tb e w v) s = actWrite src (ra (bStk k.toNat) (slotOfs tb e.toNat + w.toNat)) v s
    (slotTableWrite k.toNat tb e.toNat w.toNat v) := rfl
  rw [hexec, actWrite_up _ _ _ _ hup, slotTableWrite_locked _ _ _ (by simpa using h)]

/-- What SLOT_WRITE leaves where its table may be written (R36, R41). -/
theorem exec_slotWrite_free (src : Src) (k : StokerNo) {tb : Bool} (e : BitVec 5) (w : BitVec 2) (v : Word) {s : State}
    (hup : up s = true) (h : tableLocked k.toNat tb s = false) :
    exec (.slotWrite src k tb e w v) s = .next (done s
      (setRg (bStk k.toNat) (slotOfs tb e.toNat + w.toNat) (if w = 0 then v &&& 0x800F else v)
        (cfgNote src (ra (bStk k.toNat) (slotOfs tb e.toNat + w.toNat)) v s))) := by
  have hexec : exec (.slotWrite src k tb e w v) s = actWrite src (ra (bStk k.toNat) (slotOfs tb e.toNat + w.toNat)) v s
    (slotTableWrite k.toNat tb e.toNat w.toNat v) := rfl
  have hw : w.toNat = 0 ↔ w = 0 := by simp [BitVec.toNat_eq]
  rw [hexec, actWrite_up _ _ _ _ hup, slotTableWrite_free _ _ _ (by simpa using h)]
  simp only [hw]

theorem exec_schedSwapRequest (src : Src) (k : StokerNo) {s : State} (hup : up s = true) :
    exec (.schedSwapRequest src k) s = .next (done s
      (setRgBit (bStk k.toNat) 0x400 8 true (cfgNote src (ra (bStk k.toNat) 0x400) 0x100 s))) := by
  have hexec : exec (.schedSwapRequest src k) s = actWrite src (ra (bStk k.toNat) 0x400) 0x100 s
    (setRgBit (bStk k.toNat) 0x400 8 true) := rfl
  rw [hexec, actWrite_up _ _ _ _ hup]

/-- Settles O15, clause by clause from the equations of the frame timer's functions. -/
theorem frameTimer : Obligations.FrameTimer := by
  intro src v h k tb n w s hup
  refine ⟨fun hr hw => ⟨exec_dtbLoad src hup hr hw, exec_frmCtlRunSet src hup hr hw⟩, exec_frmCtlRunClear src hup,
    exec_frameStopComplete hup, exec_dtbW0Read_committed src hup, exec_dtbW0Read_onPath hup,
    exec_frmPeriodHiWrite src v hup, exec_frmPeriodLoWrite_unstaged src hup, exec_frmPeriodLoWrite_staged src hup,
    exec_ashNsWrite src hup, exec_syncCtlWrite_off src hup, exec_tickDecision hup, exec_syncOutPulseEnd hup,
    exec_shadowSwitch hup, exec_schedSwapRequest src k hup, fun hr hw => ?_⟩
  exact exec_slotWrite_free src k n w v hup (by simp [tableLocked, hr, hw])

/-! ### Guarded writes -/

/-- SLOT_WRITE while its table may not be written: discarded with WR_ACT (R41). -/
theorem slotWrite_discarded (src : Src) (k : StokerNo) {tb : Bool} (e : BitVec 5) (w : BitVec 2) (v : Word) {s : State}
    (hup : up s = true) (h : tableLocked k.toNat tb s = true) :
    ∃ u, exec (.slotWrite src k tb e w v) s = .next (done s u) ∧ bit (rg (bStk k.toNat) 0x401 u) 6 = true ∧
      (∀ n, 0x500 ≤ n → n < 0x600 → rg (bStk k.toNat) n u = rg (bStk k.toNat) n s) ∧ u.mem = s.mem ∧ u.ft = s.ft := by
  have hb : bStk k.toNat ≠ 4 := by unfold bStk; omega
  refine ⟨_, exec_slotWrite_locked src k e w v hup h, ?_, fun n hlo hhi => ?_, ?_, ?_⟩
  · rw [rg_setRgBit_same, bit_setBit_true _ (by decide)]
  · rw [setRgBit, rg_setRg_ofs _ _ (by omega), rg_cfgNote _ _ _ _ hb (by omega)]
  · simp [setRgBit]
  · simp [setRgBit]

/-- SLOT_WRITE where its table may be written: the word takes the value (R36, R41). -/
theorem slotWrite_taken (src : Src) (k : StokerNo) {tb : Bool} (e : BitVec 5) (w : BitVec 2) (v : Word) {s : State}
    (hup : up s = true) (h : tableLocked k.toNat tb s = false) :
    ∃ u, exec (.slotWrite src k tb e w v) s = .next (done s u) ∧
      rg (bStk k.toNat) (slotOfs tb e.toNat + w.toNat) u = (if w = 0 then v &&& 0x800F else v) ∧
      rg (bStk k.toNat) 0x401 u = rg (bStk k.toNat) 0x401 s ∧
      (∀ n, 0x500 ≤ n → n < 0x600 → n ≠ slotOfs tb e.toNat + w.toNat →
        rg (bStk k.toNat) n u = rg (bStk k.toNat) n s) ∧ u.mem = s.mem ∧ u.ft = s.ft := by
  have hb : bStk k.toNat ≠ 4 := by unfold bStk; omega
  have hofs := slotOfs_add_lt tb e w
  refine ⟨_, exec_slotWrite_free src k e w v hup h, rg_setRg_same _ _ _ _, ?_, fun n hlo hhi hn => ?_, ?_, ?_⟩
  · rw [rg_setRg_ofs _ _ (by omega), rg_cfgNote _ _ _ _ hb (by omega)]
  · rw [rg_setRg_ofs _ _ hn, rg_cfgNote _ _ _ _ hb (by omega)]
  · simp
  · simp

theorem wd_fld_low12 (v : Word) : wd (fld v 11 0) = v &&& 0x0FFF := by
  apply BitVec.eq_of_toNat_eq
  have hand : v.toNat &&& 4095 = v.toNat % 2 ^ 12 := Nat.and_two_pow_sub_one_eq_mod v.toNat 12
  simp [wd, fld, hand]
  omega

theorem exec_devnumWrite (src : Src) (v : Word) {s : State} (hup : up s = true) :
    exec (.devnumWrite src v) s = .next (done s (devnumWrite v (cfgNote src (ra 0xC 3) v s))) := by
  have hexec : exec (.devnumWrite src v) s = actWrite src (ra 0xC 3) v s (devnumWrite v) := rfl
  rw [hexec, actWrite_up _ _ _ _ hup]

/-- Some flue port has EN = 1. -/
theorem anyFlueOn_iff (s : State) :
    ((span 0 4).any fun p => bit (rg (bFl p) 0 s) 15) = true ↔ ∃ i, i < 4 ∧ bit (rg (bFl i) 0 s) 15 = true := by
  simp [List.any_eq_true, mem_span]

theorem rg_bFl_cfgNote (src : Src) (a : Nat) (v : Word) (s : State) (p : Nat) :
    rg (bFl p) 0 (cfgNote src a v s) = rg (bFl p) 0 s :=
  rg_cfgNote _ _ _ _ (by unfold bFl; omega) (by decide)

theorem devnumWrite_off {v : Word} {s : State} (h : ∀ i, i < 4 → bit (rg (bFl i) 0 s) 15 = false) :
    devnumWrite v s = setRg 0xC 3 (v &&& 0x0FFF) s := by
  have hn : ¬ ((span 0 4).any fun p => bit (rg (bFl p) 0 s) 15) = true := by
    rw [anyFlueOn_iff]
    rintro ⟨i, hi, hb⟩
    simp [h i hi] at hb
  rw [devnumWrite, if_neg hn, wd_fld_low12]

theorem devnumWrite_on {v : Word} {s : State} (h : ∃ i, i < 4 ∧ bit (rg (bFl i) 0 s) 15 = true) :
    devnumWrite v s = setRgBit 0x14 0x101 6 true s :=
  if_pos ((anyFlueOn_iff s).mpr h)

/-- ID_DEVNUM with every flue port off takes the value (R273). -/
theorem devnumWrite_taken (src : Src) (v : Word) {s : State} (hup : up s = true)
    (h : ∀ i, i < 4 → bit (rg (bFl i) 0 s) 15 = false) :
    ∃ u, exec (.devnumWrite src v) s = .next (done s u) ∧
      rg 0xC 3 u = v &&& 0x0FFF ∧ rg 0x14 0x101 u = rg 0x14 0x101 s ∧ u.mem = s.mem ∧ u.flues = s.flues := by
  refine ⟨_, exec_devnumWrite src v hup, ?_⟩
  rw [devnumWrite_off (by simpa only [rg_bFl_cfgNote] using h)]
  refine ⟨rg_setRg_same _ _ _ _, ?_, by simp, by simp⟩
  rw [rg_setRg_block _ _ (by decide) (by decide) (by decide), rg_cfgNote _ _ _ _ (by decide) (by decide)]

/-- ID_DEVNUM with a flue port on is discarded with DEVW (R273). -/
theorem devnumWrite_discarded (src : Src) (v : Word) {s : State} (hup : up s = true)
    (h : ∃ i, i < 4 ∧ bit (rg (bFl i) 0 s) 15 = true) :
    ∃ u, exec (.devnumWrite src v) s = .next (done s u) ∧
      rg 0xC 3 u = rg 0xC 3 s ∧ bit (rg 0x14 0x101 u) 6 = true ∧ u.mem = s.mem ∧ u.flues = s.flues := by
  refine ⟨_, exec_devnumWrite src v hup, ?_⟩
  rw [devnumWrite_on (by simpa only [rg_bFl_cfgNote] using h)]
  refine ⟨?_, ?_, by simp [setRgBit], by simp [setRgBit]⟩
  · rw [setRgBit, rg_setRg_block _ _ (by decide) (by decide) (by decide), rg_cfgNote _ _ _ _ (by decide) (by decide)]
  · rw [rg_setRgBit_same, bit_setBit_true _ (by decide)]

/-- Settles O17: the table's lock and the ports' enables decide between taken and discarded. -/
theorem guardedWrites : Obligations.GuardedWrites := by
  intro src k tb e w v s hup
  refine ⟨fun hrun hact => ?_, fun hfree => ?_, devnumWrite_taken src v hup, devnumWrite_discarded src v hup⟩
  · exact slotWrite_discarded src k e w v hup ((tableLocked_iff _ _ _).mpr ⟨hrun, hact⟩)
  · refine slotWrite_taken src k e w v hup (Bool.eq_false_iff.mpr fun hl => ?_)
    obtain ⟨hrun, hact⟩ := (tableLocked_iff _ _ _).mp hl
    rcases hfree with ⟨hr, hw⟩ | hne
    · rcases hrun with hr' | ⟨hw', hs'⟩ <;> simp_all
    · exact hne hact

/-! ### A step -/

/-- The idle step with nothing owed and the timebase stopped (log entry 3). -/
theorem idle_stopped {s : State} (hd : s.due = []) (h : up s = false ∨ s.pwr.tbLost = true) : idle s = s := by
  have hc : (up s && !s.pwr.tbLost) = false := by rcases h with h | h <;> simp [h]
  simp [idle, settle_of_nil _ hd, hc]

/-- The idle step with nothing owed while the timebase runs: one gc passes (R21, log entry 3). -/
theorem idle_running {s : State} (hd : s.due = []) (hup : up s = true) (htb : s.pwr.tbLost = false) :
    idle s = gcPass s := by
  simp [idle, settle_of_nil _ hd, hup, htb, gcPass, modFt]

/-- One gc of a DTB that does not slew is 16 fine steps (R22). -/
theorem gcPass_steady {s : State} (hs : s.ft.slew = 0) (hf : s.ft.fine = 0) :
    (gcPass s).ft.dtb = (s.ft.dtb + 1) % 2 ^ 64 ∧ (gcPass s).ft.fine = 0 := by
  simp [gcPass, modFt, hs, hf]

/-- Settles O53: a waiting command runs, and the idle step is `idle_stopped` or `idle_running`. -/
theorem stepRunsFront : Obligations.StepRunsFront := by
  intro c rest s
  refine ⟨step_cons rfl, fun hp hd => ⟨fun h => ?_, fun hup htb => ⟨gcPass s, ?_, rfl, gcPass_steady⟩⟩⟩
  · rw [step_nil hp, idle_stopped hd h]
  · rw [step_nil hp, idle_running hd hup htb]

/-- Settles O58: every field stands at its default, and the two period registers at their reset values. -/
theorem resetState : Obligations.ResetState := by
  unfold Obligations.ResetState
  have hp : rgs 0 2 2 State.reset = 125000 := by rw [rgs_two]; decide +kernel
  exact ⟨rfl, rfl, rfl, rfl, rfl, rfl, rfl, rfl, rfl, hp, rfl, fun _ => ⟨rfl, rfl, rfl, rfl⟩,
    fun _ => ⟨rfl, rfl, rfl, rfl⟩, rfl, rfl, fun _ => rfl⟩

/-! ### What a tick's notices leave as it is -/

/-- What the statement of the tick reads beside the registers: the frame timer, memory, the counters' two copies. -/
def tickView (s : State) : FrameT × List Host.Cell × FMap Word × FMap Word := (s.ft, s.mem, s.shadowA, s.shadowB)

section
variable (k n o : Nat) (s : State)
@[simp] theorem tickView_modCtx (f : Ctx → Ctx) : tickView (modCtx k f s) = tickView s := rfl
@[simp] theorem tickView_modSch (f : Sch → Sch) : tickView (modSch k f s) = tickView s := rfl
@[simp] theorem tickView_modStk (f : Stk → Stk) : tickView (modStk k f s) = tickView s := rfl
@[simp] theorem tickView_modPin (f : Pin → Pin) : tickView (modPin k f s) = tickView s := rfl
@[simp] theorem tickView_modGrate (f : Grate → Grate) : tickView (modGrate k f s) = tickView s := rfl
@[simp] theorem tickView_modLane (f : Lane → Lane) : tickView (modLane k f s) = tickView s := rfl
@[simp] theorem tickView_modFlt (f : FltSt → FltSt) : tickView (modFlt k f s) = tickView s := rfl
@[simp] theorem tickView_setRg (v : Word) : tickView (setRg n o v s) = tickView s := by
  unfold tickView
  rw [setRg_ft, setRg_mem, setRg_shadowA, setRg_shadowB]
@[simp] theorem tickView_setRgBit (i : Nat) (b : Bool) : tickView (setRgBit n o i b s) = tickView s :=
  tickView_setRg _ _ _ _
@[simp] theorem tickView_addDue (d : Due) : tickView (addDue d s) = tickView s := rfl
end

@[simp] theorem tickView_forAll {f : Nat → State → State} (hf : ∀ n t, tickView (f n t) = tickView t) (ns : List Nat)
    (s : State) : tickView (forAll ns f s) = tickView s := forAll_field tickView hf ns s

@[simp] theorem tickView_setRgs (n o : Nat) (ws : List Word) (s : State) : tickView (setRgs n o ws s) = tickView s := by
  rw [setRgs_eq]; rfl

@[simp] theorem tickView_countBy (n o m : Nat) (s : State) : tickView (countBy n o m s) = tickView s :=
  tickView_setRgs _ _ _ _
@[simp] theorem tickView_count (n o : Nat) (s : State) : tickView (count n o s) = tickView s := tickView_countBy _ _ _ _

@[simp] theorem tickView_setRun (sub : Nat) (r : Run) (s : State) : tickView (setRun sub r s) = tickView s := rfl

@[simp] theorem tickView_setStep (sub : Nat) (c : ChStep) (s : State) : tickView (setStep sub c s) = tickView s := by
  unfold setStep
  dsimp only
  split
  · rw [tickView_addDue, tickView_modSch]
  · rw [tickView_setRun, tickView_modSch]

@[simp] theorem tickView_endInternal (sub : Nat) (b : Byte) (s : State) :
    tickView (endInternal sub b s) = tickView s := tickView_setStep _ _ _

@[simp] theorem tickView_fqDiscardSub (sub : Nat) (b : Bool) (s : State) :
    tickView (fqDiscardSub sub b s) = tickView s := tickView_forAll (fun _ _ => tickView_modPin _ _ _) _ _

@[simp] theorem tickView_countFree (n o : Nat) (s : State) : tickView (countFree n o s) = tickView s :=
  tickView_countBy _ _ _ _

/-- Undoing a speculative path (R105) touches neither memory nor the frame timer. -/
@[simp] theorem tickView_squash (sub : Nat) (s : State) : tickView (squash sub s) = tickView s := by
  unfold squash
  split
  · rfl
  · dsimp only
    rw [tickView_setRun, tickView_countFree, blwCount, tickView_countBy, tickView_fqDiscardSub, tickView_modCtx,
      tickView_modStk]
    rfl

@[simp] theorem tickView_tickSub (sub : Nat) (s : State) : tickView (tickSub sub s) = tickView s := by
  unfold tickSub
  dsimp only
  repeat' split
  all_goals simp

@[simp] theorem tickView_tickCtx (sub : Nat) (s : State) : tickView (tickCtx sub s) = tickView s := by
  unfold tickCtx
  dsimp only
  split <;> simp

@[simp] theorem tickView_hevEdge (e : Nat) (s : State) : tickView (hevEdge e s) = tickView s := by
  unfold hevEdge doIf
  split <;> rfl

@[simp] theorem tickView_evEdge (h n : Nat) (s : State) : tickView (evEdge h n s) = tickView s := by
  unfold evEdge
  repeat' split
  all_goals simp [evPut]

@[simp] theorem tickView_grateOwnTick (g : Nat) (s : State) : tickView (grateOwnTick g s) = tickView s := by
  unfold grateOwnTick
  split
  · rfl
  · dsimp only
    split <;> simp

@[simp] theorem tickView_laneOwnTick (l : Nat) (s : State) : tickView (laneOwnTick l s) = tickView s := by
  unfold laneOwnTick
  split
  · rfl
  · dsimp only
    split <;> simp [setLnBit]

@[simp] theorem tickView_ownTick (s : State) : tickView (ownTick s) = tickView s := by
  simp [ownTick]

@[simp] theorem tickView_endHold (g : Nat) (s : State) : tickView (endHold g s) = tickView s := by
  rw [endHold, tickView_modGrate]
  generalize (grate g s).kPend = kvs
  induction kvs generalizing s with
  | nil => rfl
  | cons kv kvs ih => rw [List.foldl_cons, ih, tickView_setRg]

@[simp] theorem tickView_tickSeqs (s : State) : tickView (tickSeqs s) = tickView s := by
  simp [tickSeqs]

/-! ### The tick -/

/-- A tick with frames running: the copies are taken, the timer moves, and the notices leave both as they are (R30, R44). -/
theorem tickView_tick {s : State} (hr : s.ft.running = true) (hs : s.ft.stopPending = false) :
    tickView (tick s) = tickView (tickTimer (frameOver (snapshot s))) := by
  unfold tick
  rw [if_neg (by simp [hr, hs])]
  dsimp only
  rw [tickView_forAll, tickView_tickSeqs, tickView_ownTick, tickView_forAll, tickView_forAll, tickView_forAll,
    tickView_forAll, hr, doIf_true]
  all_goals
    intro n t
    simp

theorem exec_tick {s : State} (hup : up s = true) (hr : s.ft.running = true) (hs : s.ft.stopPending = false) :
    ∃ u, exec .tick s = .next (done s u) ∧ u.ft.frmNum = s.ft.frmNum + 1 ∧
       u.ft.dtb = max s.ft.dtb s.ft.nextTick ∧ u.ft.tickDtb = u.ft.dtb ∧ u.ft.decided = false ∧ u.ft.inAsh = false ∧
       u.ft.prevPeriod = s.ft.framePeriod ∧ u.ft.framePeriod = s.ft.period ∧ u.mem = s.mem ∧
       (if s.shadowSel then u.shadowA else u.shadowB) = s.regs.filter fun kv => isCounter kv.1 := by
  obtain ⟨hft, hmem, hA, hB⟩ : (tick s).ft = _ ∧ (tick s).mem = _ ∧ (tick s).shadowA = _ ∧ (tick s).shadowB = _ := by
    simpa [tickView] using tickView_tick hr hs
  refine ⟨tick s, act_up tick hup, ?_⟩
  rw [hft, hmem, hA, hB]
  cases hsel : s.shadowSel <;> simp [tickTimer, snapshot, hsel]

/-! ### Schedule windows -/

theorem boundary_free {k : Nat} {s : State} (h : (stk k s).cur = none) : boundary k s = addDue (.resched k) s := by
  simp [boundary, h]

/-- A window opens on a free stoker (R38). -/
theorem windowStart_free {k e : Nat} {x : Slot} {s : State} (hr : s.ft.running = true) (ha : s.ft.inAsh = false)
    (hw : (stk k s).noWindow = false) (hc : (stk k s).cur = none) (hx : slotOf k (activeB k s) e s = some x) :
    windowStart k e s = addDue (.resched k) (modStk k (fun y => { y with window := some x.ctx }) s) := by
  simp [windowStart, hr, ha, hw, hx, boundary_free, hc]

/-- The open window of an inactive owner ends on a free stoker (R38). -/
theorem windowEnd_inactive {k e : Nat} {x : Slot} {s : State} (hc : (stk k s).cur = none)
    (hx : slotOf k (activeB k s) e s = some x) (ho : (stk k s).window = some x.ctx)
    (hi : (ctx (16 * k + x.ctx) s).run = .inactive) :
    windowEnd k e s = addDue (.resched k) (modStk k (fun y => { y with window := none }) s) := by
  simp [windowEnd, hx, ho, closeWindow, hi, boundary_free, hc]

theorem exec_scheduleWindowStart (k : StokerNo) (e : BitVec 5) {s : State} (hup : up s = true) :
    exec (.scheduleWindowStart k e) s = .next (done s (windowStart k.toNat e.toNat s)) :=
  act_up (windowStart k.toNat e.toNat) hup

theorem exec_scheduleWindowEnd (k : StokerNo) (e : BitVec 5) {s : State} (hup : up s = true) :
    exec (.scheduleWindowEnd k e) s = .next (done s (windowEnd k.toNat e.toNat s)) :=
  act_up (windowEnd k.toNat e.toNat) hup

/-! ### SYNC_IN -/

theorem exec_syncInPulse (p : SyncPulse) {s : State} (hup : up s = true) :
    exec (.syncInPulse p) s = .next (done s (syncIn p.rising p.width.toNat p.stamp.toNat s)) :=
  act_up (syncIn p.rising p.width.toNat p.stamp.toNat) hup

/-- A pulse of the wrong polarity or shorter than 16 ns is ignored (R32). -/
theorem syncIn_ignored {r : Bool} {width : Nat} {s : State} (stamp : Nat) (h : r = bit (rg 0 5 s) 1 ∨ width < 256) :
    syncIn r width stamp s = s := by
  rcases h with h | h <;> simp [syncIn, h]

/-- The first pulse inside the last tick's window (R33, R34). -/
theorem syncIn_last {r : Bool} {width stamp : Nat} {s : State} (hr : r ≠ bit (rg 0 5 s) 1) (hw : 256 ≤ width)
    (hwait : s.ft.waiting = false) (hrun : s.ft.running = true) (hsync : s.ft.sync = .locked)
    (hcap : s.ft.captured = false)
    (hin : inWindow s.ft.tickDtb s.ft.prevPeriod s.ft.framePeriod stamp = true) :
    syncIn r width stamp s =
      (let e : Int := (stamp : Int) - (16 * s.ft.tickDtb : Nat)
       correct e (pullOf e s.ft.framePeriod s.ft.k s) (syncHit s)) := by
  have hne : (s.ft.sync == Sync.off) = false := by rw [hsync]; rfl
  simp [syncIn, syncPulse, hr, Nat.not_lt.mpr hw, hwait, hrun, hne, hcap, hin]

/-- A pulse that LOCKED uses is counted (R34). -/
theorem syncHit_locked {s : State} (h : s.ft.sync = .locked) :
    syncHit s = modFt (fun f => { f with captured := true, sync := .locked, missRun := 0 }) (count 0 0x30 s) := by
  have hl : (s.ft.sync == Sync.locked) = true := by rw [h]; rfl
  simp [syncHit, hl]

@[simp] theorem count_ft (n o : Nat) (s : State) : (count n o s).ft = s.ft := congrArg Prod.fst (tickView_count n o s)

@[simp] theorem rgs_modFt (n o k : Nat) (f : FrameT → FrameT) (s : State) : rgs n o k (modFt f s) = rgs n o k s := by
  simp only [rgs, rg_modFt]
@[simp] theorem rgs_raise (n o k b i : Nat) (u : Word) (s : State) : rgs n o k (raise b i u s) = rgs n o k s := by
  simp only [rgs, rg_congr (addDue_regs _ s), raise]
@[simp] theorem raise_ft (b i : Nat) (u : Word) (s : State) : (raise b i u s).ft = s.ft := rfl

/-- A counter of other registers leaves a counter as it is. -/
theorem rgs_two_count_ne {n o p : Nat} (s : State) (h : p + 2 ≤ o ∨ o + 2 ≤ p) :
    rgs n p 2 (count n o s) = rgs n p 2 s := by
  have hne : ∀ q, q = p ∨ q = p + 1 → rg n q (count n o s) = rg n q s := fun q hq =>
    rg_countBy_ne 1 s (ra_ne_ofs n (by omega)) (ra_ne_ofs n (by omega))
  rw [rgs_two, rgs_two, hne p (.inl rfl), hne (p + 1) (.inr rfl)]

/-- A window that LOCKED closes without a pulse is a miss, counted whether or not the limit frees the timer (R34). -/
theorem syncMiss_counts (s : State) :
    (syncMiss s).ft.missRun = s.ft.missRun + 1 ∧ rgs 0 0x32 2 (syncMiss s) = (rgs 0 0x32 2 s + 1) % 2 ^ 32 := by
  unfold syncMiss
  dsimp only
  split
  · exact ⟨by rw [raise_ft, count_ft, modFt_ft], by rw [rgs_raise, rgs_count, rgs_modFt]⟩
  · refine ⟨by rw [raise_ft, count_ft, modFt_ft, raise_ft, count_ft, modFt_ft], ?_⟩
    rw [rgs_raise, rgs_two_count_ne _ (by decide), rgs_modFt, rgs_raise, rgs_count, rgs_modFt]

theorem exec_syncWindowClose {s : State} (hup : up s = true) :
    exec .syncWindowClose s = .next (done s (syncClose s)) := act_up syncClose hup

theorem syncClose_captured {s : State} (hrun : s.ft.running = true) (hcap : s.ft.captured = true) :
    syncClose s = { s with ft := { s.ft with captured := false } } := by
  simp [syncClose, hrun, hcap, modFt]

theorem syncClose_missed {s : State} (hrun : s.ft.running = true) (hsync : s.ft.sync = .locked)
    (hcap : s.ft.captured = false) : syncClose s = syncMiss s := by
  have hl : (s.ft.sync == Sync.locked) = true := by rw [hsync]; rfl
  simp [syncClose, hrun, hl, hcap]

/-- A pulse inside the last tick's window of LOCKED corrects the frame in progress (R33, R34). -/
theorem exec_syncInPulse_last {r : Bool} {len : Word} {x : W64} {s : State} (hup : up s = true)
    (hrun : s.ft.running = true) (hsync : s.ft.sync = .locked) (hr : r ≠ bit (rg 0 5 s) 1) (hw : 256 ≤ len.toNat)
    (hwait : s.ft.waiting = false) (hcap : s.ft.captured = false)
    (hin : inWindow s.ft.tickDtb s.ft.prevPeriod s.ft.framePeriod (x.toNat : Int) = true) :
    let e : Int := (x.toNat : Int) - (16 * s.ft.tickDtb : Nat)
    ∃ u, exec (.syncInPulse ⟨r, len, x⟩) s = .next (done s u) ∧ u.ft.captured = true ∧ u.ft.sync = .locked ∧
      u.ft.missRun = 0 ∧ u.ft.syncErr = e ∧
      (follows s = false → u.ft.syncCorr = pull e s.ft.framePeriod s.ft.k) ∧ u.ft.corr = u.ft.syncCorr ∧
      u.ft.nextTick = ((s.ft.tickDtb + 8 * s.ft.framePeriod : Nat) + u.ft.syncCorr).toNat ∧
      rgs 0 0x30 2 u = (rgs 0 0x30 2 s + 1) % 2 ^ 32 := by
  refine ⟨_, exec_syncInPulse ⟨r, len, x⟩ hup, ?_⟩
  rw [syncIn_last hr hw hwait hrun hsync hcap hin, syncHit_locked hsync]
  refine ⟨?_, ?_, ?_, ?_, fun hf => ?corr, ?_, ?_, ?_⟩
  case corr => simp [correct, pullOf, hf]
  all_goals simp [correct, rgs_count]

/-- Settles O16: the tick, the windows, and the two ends of a capture window. -/
theorem ticksAndSync : Obligations.TicksAndSync := by
  refine ⟨fun s hup hr => ⟨exec_tick hup hr, fun k e x ha hw hc hx => ⟨?_, fun ho hi => ?_⟩⟩,
    fun r len x s hup hr hsync => ⟨fun hi => ?_, exec_syncInPulse_last hup hr hsync, fun hcap => ?_, fun hcap => ?_⟩⟩
  · rw [exec_scheduleWindowStart k e hup, windowStart_free hr ha hw hc hx]
  · rw [exec_scheduleWindowEnd k e hup, windowEnd_inactive hc hx ho hi]
  · rw [exec_syncInPulse _ hup, syncIn_ignored _ hi]
  · rw [exec_syncWindowClose hup, syncClose_captured hr hcap]
  · refine ⟨_, exec_syncWindowClose hup, ?_⟩
    rw [syncClose_missed hr hsync hcap]
    exact syncMiss_counts s

/-! ### Maps cut down to a set of keys -/

/-- A byte that a cut removes reads as unlisted. -/
theorem getByte_filter_out (p : Host.Cell → Bool) {b : Nat} (hp : ∀ c : Host.Cell, c.1 = b → p c = false)
    (m : List Host.Cell) : getByte b (m.filter p) = memDflt b := by
  induction m with
  | nil => rfl
  | cons c r ih =>
    cases hc : p c with
    | false => rw [List.filter_cons_of_neg (by simp [hc]), ih]
    | true =>
      have hne : ¬ c.1 = b := fun h => by simp [hp c h] at hc
      rw [List.filter_cons_of_pos hc, getByte, if_neg hne, ih]

/-- A key that a cut removes has the default. -/
theorem mget_filter_out {α : Type} (d : α) (p : Nat × α → Bool) {k : Nat} (hp : ∀ c : Nat × α, c.1 = k → p c = false)
    (m : FMap α) : mget d k (m.filter p) = d := by
  induction m with
  | nil => rfl
  | cons c r ih =>
    cases hc : p c with
    | false => rw [List.filter_cons_of_neg (by simp [hc]), ih]
    | true =>
      have hne : ¬ c.1 = k := fun h => by simp [hp c h] at hc
      rw [List.filter_cons_of_pos hc, mget, if_neg hne, ih]

/-! ### Reset and supplies -/

/-- What the device reset leaves: everything outside the ember domain and the scan port as after reset (R240, R378). -/
def Cold (s u : State) : Prop :=
  up u = false ∧ u.regs = [] ∧ u.ctx = [] ∧ u.sch = [] ∧ u.stk = [] ∧ u.pins = [] ∧
    u.grates = [] ∧ u.fifos = [] ∧ u.ft = {} ∧ u.boot = {} ∧ u.safe = {} ∧ u.mram = s.mram ∧ u.tap = s.tap ∧
    u.fc.soot = s.fc.soot ∧ ∀ b, 0x40000000 ≤ b → getByte b u.mem = none

/-- GDDR6 loses its contents with the device reset (R240). -/
theorem getByte_deviceReset {b : Nat} (h : 0x40000000 ≤ b) (s : State) : getByte b (deviceReset s).mem = none := by
  refine (getByte_filter_out _ (fun c hc => ?_) s.mem).trans ?_
  · exact decide_eq_false (by omega)
  · exact if_neg (by omega)

/-- A device reset with the power state such that the device is not up leaves it cold. -/
theorem cold_deviceReset (f : Power → Power) {s : State} (hdown : up (modPwr f (deviceReset s)) = false) :
    Cold s (modPwr f (deviceReset s)) :=
  ⟨hdown, rfl, rfl, rfl, rfl, rfl, rfl, rfl, rfl, rfl, rfl, rfl, rfl, rfl, fun _ h => getByte_deviceReset h s⟩

theorem exec_resetAssert (s : State) :
    ∃ u, exec .resetAssert s = .next (done s u) ∧ u.pwr.resetN = false ∧ Cold s u :=
  ⟨resetAssert s, actAlways_eq s resetAssert, rfl, cold_deviceReset _ rfl⟩

theorem exec_railUndervoltage (s : State) :
    ∃ u, exec .railUndervoltage s = .next (done s u) ∧ u.pwr.railLow = true ∧ Cold s u :=
  ⟨railFall s, actAlways_eq s railFall, rfl, cold_deviceReset _ (by simp [up, modPwr])⟩

theorem exec_resetRelease (bs : BitVec 2) (safeN : Bool) {s : State} (h : s.pwr.resetN = false) :
    exec (.resetRelease bs safeN) s = .next (done s { s with
      pwr := { s.pwr with resetN := true, bootsel := bs, safeN := safeN }, boot := { s.boot with src := bs } }) := by
  have hexec : exec (.resetRelease bs safeN) s = .next (done s (resetRelease bs safeN s)) :=
    actAlways_eq s (resetRelease bs safeN)
  rw [hexec]
  simp [resetRelease, modPwr, h]

theorem exec_railRecovery {s : State} (h : s.pwr.resetN = true) :
    exec .railRecovery s = .next (done s { s with
      pwr := { s.pwr with railLow := false }, boot := { s.boot with src := s.pwr.bootsel } }) := by
  have hexec : exec .railRecovery s = .next (done s (railReturn s)) := actAlways_eq s railReturn
  rw [hexec]
  simp [railReturn, modPwr, h]

/-! ### The boot count and the SRAM at the PLL's lock -/

/-- An MRAM word of the boot record, which is neither key nor signing state, is the stored one (R365). -/
theorem mramGet_boot {k : Nat} (hlo : 0x80A2 ≤ k) (hhi : k < 0x9000) (s : State) :
    mramGet k s = mget (Config.mram k) k s.mram := by
  unfold mramGet
  rw [if_neg (by simp; omega), if_neg (by simp; omega), if_neg (by simp; omega)]

/-- Two MRAM words of the boot record read back. -/
theorem mramGet_mramPuts_pair {k : Nat} (hlo : 0x80A2 ≤ k) (hhi : k + 1 < 0x9000) (v w : Word) (s : State) :
    [mramGet k (mramPuts k [v, w] s), mramGet (k + 1) (mramPuts k [v, w] s)] = [v, w] := by
  rw [mramGet_boot hlo (by omega), mramGet_boot (by omega) hhi]
  simp only [mramPuts, mramPut]
  rw [mget_mset_ne _ _ _ _ (show k ≠ k + 1 by omega), mget_mset_same, mget_mset_same]

/-- Boot stage 1 counts the boot (R365). -/
theorem bootBegin_count {s : State} (he : s.pwr.emberOk = true) :
    valOf [mramGet 0x80D6 (bootBegin s), mramGet 0x80D7 (bootBegin s)] =
      (valOf [mramGet 0x80D6 s, mramGet 0x80D7 s] + 1) % 2 ^ 32 := by
  have hread : ∀ k, 0x80A2 ≤ k → k < 0x9000 → mramGet k (bootBegin s) = mramGet k (mramPuts 0x80D6
      (wordsOf 2 (valOf [mramGet 0x80D6 s, mramGet 0x80D7 s] + 1)) s) := fun k hlo hhi => by
    rw [mramGet_boot hlo hhi, mramGet_boot hlo hhi, bootBegin, he, doIf_true]
  rw [hread _ (by decide) (by decide), hread _ (by decide) (by decide), ← valOf_wordsOf_two]
  exact congrArg valOf (mramGet_mramPuts_pair (by decide) (by decide) _ _ s)

/-- What boot stage 1 changes: MRAM, which has the boot count, the SRAM with its stored errors, and the stage. -/
theorem bootBegin_eq (s : State) : bootBegin s = { s with
    mram := (bootBegin s).mram
    mem := s.mem.filter fun c => decide (0x40000000 ≤ c.1)
    marks := s.marks.filter fun m => !isSram m.1
    boot := { s.boot with stage := 1 } } := by
  unfold bootBegin doIf
  dsimp only
  split <;> rfl

theorem bootBegin_mem (s : State) : (bootBegin s).mem = s.mem.filter fun c => decide (0x40000000 ≤ c.1) := by
  rw [bootBegin_eq]
theorem bootBegin_marks (s : State) : (bootBegin s).marks = s.marks.filter fun m => !isSram m.1 := by rw [bootBegin_eq]
theorem bootBegin_boot (s : State) : (bootBegin s).boot = { s.boot with stage := 1 } := by rw [bootBegin_eq]
theorem bootBegin_pwr (s : State) : (bootBegin s).pwr = s.pwr := by rw [bootBegin_eq]

/-- Boot stage 1 initialises the SRAM: every word is 0, with no stored error (R233). -/
theorem bootBegin_sram {k : Nat} (hk : k < 0x20000000) (s : State) :
    memWord k (bootBegin s) = some 0 ∧ mget 0 k (bootBegin s).marks = 0 := by
  have hbyte : ∀ b, b < 0x40000000 → getByte b (bootBegin s).mem = some 0 := fun b hb => by
    rw [bootBegin_mem, getByte_filter_out _ (fun c hc => decide_eq_false (by omega)), memDflt, if_pos hb]
  constructor
  · unfold memWord
    rw [hbyte (2 * k) (by omega), hbyte (2 * k + 1) (by omega)]
    rfl
  · rw [bootBegin_marks]
    refine mget_filter_out _ _ (fun c hc => ?_) _
    simp [isSram, hc, hk]

/-- The first lock with the supplies up and SAFE_N high begins boot (R21, R357). -/
theorem pllLock_first {s : State} (hr : s.pwr.resetN = true) (hl : s.pwr.railLow = false) (hp : s.pwr.pll = false)
    (ht : s.pwr.tbLost = false) (hs : s.pwr.safeN = true) :
    pllLock s = bootBegin (modPwr (fun p => { p with pll := true }) s) := by
  simp [pllLock, hr, hl, hp, ht, hs, modPwr]

theorem exec_timebasePllLock {s : State} (hr : s.pwr.resetN = true) (hl : s.pwr.railLow = false)
    (hp : s.pwr.pll = false) (ht : s.pwr.tbLost = false) (hs : s.pwr.safeN = true) :
    ∃ u, exec .timebasePllLock s = .next (done s u) ∧ up u = true ∧ u.boot = { s.boot with stage := 1 } ∧
      (∀ k, k < 0x20000000 → memWord k u = some 0 ∧ mget 0 k u.marks = 0) ∧
      (s.pwr.emberOk = true → valOf [mramGet 0x80D6 u, mramGet 0x80D7 u] =
        (valOf [mramGet 0x80D6 s, mramGet 0x80D7 s] + 1) % 2 ^ 32) := by
  refine ⟨pllLock s, actAlways_eq s pllLock, ?_⟩
  rw [pllLock_first hr hl hp ht hs]
  exact ⟨by simp [up, bootBegin_pwr, modPwr, hr, hl], bootBegin_boot _, fun _ hk => bootBegin_sram hk _,
    fun he => bootBegin_count (s := modPwr (fun p => { p with pll := true }) s) he⟩

/-! ### Monitors -/

@[simp] theorem doIf_raise_regs (c : Bool) (b i : Nat) (u : Word) (s : State) : (doIf c (raise b i u) s).regs = s.regs :=
  doIf_field State.regs c (f := raise b i u) (fun _ => rfl) s
@[simp] theorem doIf_raise_mem (c : Bool) (b i : Nat) (u : Word) (s : State) : (doIf c (raise b i u) s).mem = s.mem :=
  doIf_field State.mem c (f := raise b i u) (fun _ => rfl) s
theorem voltSample_regs (mv vio : List Word) (s : State) :
    (voltSample mv vio s).regs = (setRgs 7 0x120 (vio.take 16) (setRgs 7 0x110 (mv.take 7) s)).regs := by
  simp [voltSample, modPwr]

theorem voltSample_mem (mv vio : List Word) (s : State) : (voltSample mv vio s).mem = s.mem := by
  simp [voltSample, modPwr, setRgs_mem]

/-- A sample with every rail within its tolerance raises nothing (R384). -/
theorem voltSample_due {mv : List Word} (vio : List Word) {s : State} (h : ∀ m, m < 7 → railBad m (nth mv m).toNat = false) :
    (voltSample mv vio s).due = s.due := by
  have hout : (span 0 6).filter (fun m => railBad m (nth mv m).toNat) = [] := by
    rw [List.filter_eq_nil_iff]
    intro m hm
    simp [h m (by have := mem_span.mp hm; omega)]
  simp [voltSample, modPwr, hout, h 6 (by decide)]

theorem exec_voltageMonitorSample {mv vio : List Word} {s : State} (hup : up s = true) (hm : mv.length = 7)
    (hv : vio.length = 16) :
    ∃ u, exec (.voltageMonitorSample mv vio) s = .next (done s u) ∧
      ((span 0x110 7).map fun o => rg 7 o u) = mv ∧ ((span 0x120 16).map fun o => rg 7 o u) = vio ∧ u.mem = s.mem ∧
      ((∀ m, m < 7 → railBad m (nth mv m).toNat = false) → u.due = s.due) := by
  refine ⟨voltSample mv vio s, act_up (voltSample mv vio) hup, ?_, ?_, voltSample_mem mv vio s, voltSample_due vio⟩
  all_goals
    simp only [rg_congr (voltSample_regs mv vio s), List.take_of_length_le (Nat.le_of_eq hm),
      List.take_of_length_le (Nat.le_of_eq hv)]
  · rw [List.map_congr_left fun o ho => rg_setRgs_outside vio _ (.inl (by have := mem_span.mp ho; omega))]
    exact map_rg_setRgs 7 0x110 hm s
  · exact map_rg_setRgs 7 0x120 hv _

theorem tempSample_regs (ts : List Word) (s : State) : (tempSample ts s).regs = (setRgs 7 0x100 (ts.take 8) s).regs := by
  simp [tempSample, modPwr]

theorem tempSample_mem (ts : List Word) (s : State) : (tempSample ts s).mem = s.mem := by
  simp [tempSample, modPwr, setRgs_mem]

/-- A sample above the grade's highest Tj, the first after cooler ones, raises source 0 (R383). -/
theorem tempSample_hot {ts : List Word} {s : State} (hl : ts.length = 8) (hc : s.pwr.hot = false)
    (h : ∃ t ∈ ts, gradeMax < sx 16 t.toNat) : .fault 7 0 true false 0 false ∈ (tempSample ts s).due := by
  have habove : (((ts.take 8).map fun w => sx 16 w.toNat).any fun t => decide (gradeMax < t)) = true := by
    simpa [List.take_of_length_le (Nat.le_of_eq hl)] using h
  simp only [tempSample, habove, hc, Bool.not_false, Bool.and_true, doIf_true]
  unfold doIf
  split <;> simp [raise]

/-- A sample within the grade raises nothing (R383). -/
theorem tempSample_cool {ts : List Word} {s : State} (hl : ts.length = 8) (h : ∀ t ∈ ts, sx 16 t.toNat ≤ gradeMax) :
    (tempSample ts s).due = s.due := by
  have habove : (((ts.take 8).map fun w => sx 16 w.toNat).any fun t => decide (gradeMax < t)) = false := by
    simpa [List.take_of_length_le (Nat.le_of_eq hl)] using h
  have hcrit : (((ts.take 8).map fun w => sx 16 w.toNat).any fun t => decide (gradeMax + 160 ≤ t)) = false := by
    rw [List.any_eq_false] at habove ⊢
    intro t ht
    have := habove t ht
    simp at this ⊢
    omega
  simp only [tempSample, habove, hcrit, Bool.false_and, doIf_false]
  exact setRgs_due 7 0x100 _ s

theorem exec_temperatureSample {ts : List Word} {s : State} (hup : up s = true) (hl : ts.length = 8) :
    ∃ u, exec (.temperatureSample ts) s = .next (done s u) ∧
      ((span 0x100 8).map fun o => rg 7 o u) = ts ∧ u.mem = s.mem ∧
      (s.pwr.hot = false → (∃ t ∈ ts, gradeMax < sx 16 t.toNat) → .fault 7 0 true false 0 false ∈ u.due) ∧
      ((∀ t ∈ ts, sx 16 t.toNat ≤ gradeMax) → u.due = s.due) := by
  refine ⟨tempSample ts s, act_up (tempSample ts) hup, ?_, tempSample_mem ts s, tempSample_hot hl, tempSample_cool hl⟩
  simp only [rg_congr (tempSample_regs ts s), List.take_of_length_le (Nat.le_of_eq hl)]
  exact map_rg_setRgs 7 0x100 hl s

/-! ### The boundary-scan port -/

theorem exec_fusekey_empty {slot : BitVec 2} (hash : BitVec 256) {s : State} (hr : s.pwr.resetN = false)
    (he : (s.tap.keys.any fun kv => kv.1 == slot.toNat) = false) :
    exec (.fusekey slot hash) s = .next (done s
      { s with tap := { s.tap with ir := 0x20, keys := mput slot.toNat hash s.tap.keys, capture := slot ++ hash } }) := by
  have hexec : exec (.fusekey slot hash) s = .next (done s (fuseKey slot hash s)) := actAlways_eq s (fuseKey slot hash)
  rw [hexec]
  simp only [fuseKey, modTap, hr, he, Bool.false_eq_true, if_false, mget_mput_same]

theorem exec_fusekey_running (slot : BitVec 2) (hash : BitVec 256) {s : State} (hr : s.pwr.resetN = true) :
    exec (.fusekey slot hash) s = .next (done s { s with tap := { s.tap with ir := 0x20 } }) := by
  have hexec : exec (.fusekey slot hash) s = .next (done s (fuseKey slot hash s)) := actAlways_eq s (fuseKey slot hash)
  rw [hexec]
  simp only [fuseKey, modTap, hr, if_true]

/-- Settles O49, clause by clause; the scan instructions but FUSEKEY are changes of the port's state alone. -/
theorem powerAndScan : Obligations.PowerAndScan := by
  intro bs safeN mv vio ts slot hash code ch s
  exact ⟨exec_resetAssert s, exec_railUndervoltage s, exec_resetRelease bs safeN, exec_railRecovery, exec_timebasePllLock,
    exec_voltageMonitorSample, exec_temperatureSample, actAlways_eq s (modTap _), actAlways_eq s (modTap _),
    actAlways_eq s (modTap _), actAlways_eq s (modTap _), actAlways_eq s (modTap _), actAlways_eq s (modTap _),
    actAlways_eq s (modTap _), exec_fusekey_empty hash, exec_fusekey_running slot hash⟩

/-! ### Commands that find the device down -/

/-- Settles O55: a command that is not among the exceptions has the frame of `act`, or of `actWrite` where it is a register
write, and so does nothing. -/
theorem nothingRunsInReset : Obligations.NothingRunsInReset := by
  intro c s hdown hc
  cases c with
  | resetAssert | resetRelease | timebasePllLock | timebaseLoss | railUndervoltage | railRecovery | idcode
  | samplePreload | extest | clamp | highz | fusekey | bypass | tapReset | mramWriteComplete
  | emberSupplyReturn | safeNAsserted | safeNRelease | damperRuleTrip | ruleConditionFalse | ruleParityError
  | pinEdgeAccepted => exact False.elim hc
  | dtbLoad | frmCtlRunSet | frmCtlRunClear | frmPeriodHiWrite | frmPeriodLoWrite | ashNsWrite | syncCtlWrite
  | schedSwapRequest | slotWrite | codemapWrite | stkHoldWrite | grateOwnerRequest | sqUwWrite | sqBt0Write | sqBt1Write
  | ruleArm | ruleDisarm | damperLock | safeClear | laneModeWrite | qdRateWrite | laneOwnerRequest | bulkRetrain
  | fluePortEnable | flueRetrain | flueRestore | devnumWrite | flueIsolate | evcSlotWrite | wqEnable | wqDisable
  | cqEnable | faultForce | faultAcknowledge | faultMinNs0Write | faultMinNs1Write | unitResetRequest
  | retirementReturn | sootLoad | selfTestRequest =>
    delta exec
    exact actWrite_down _ _ _ _ hdown
  | _ =>
    delta exec
    exact act_down _ hdown

end Sys2Proof.Proofs.FiringFrame
end

/-! Proofs for the bellows' family (O36). First what a read of memory words without a stored error answers, and what opening
a segment leaves as it is; then the effect of each command of the bellows, under the conditions that the statement names;
each clause is one of those effects in the frame of `act`. -/
section
namespace Sys2Proof.Proofs.Bellows
open Sys2Proof Sys2Proof.Machine Sys2Proof.Proofs.FiringFrame

/-! ### Words without a stored error -/

theorem placesAt_cons {sub : Sub} {a : Nat} {as ks : List Nat} {s : State} :
    placesAt sub (a :: as) ks s ↔
      ∃ k ks', ks = k :: ks' ∧ subPlace sub.toNat a s = .mem k ∧ placesAt sub as ks' s := by
  constructor
  · intro h
    cases ks with
    | nil => exact absurd h (List.cons_ne_nil _ _)
    | cons k ks =>
      obtain ⟨hk, hp⟩ := List.cons.inj h
      exact ⟨k, ks, rfl, hk, hp⟩
  · rintro ⟨k, ks, rfl, hk, hp⟩
    exact List.cons_eq_cons.mpr ⟨hk, hp⟩

theorem wordsAt_cons {k : Nat} {ks : List Nat} {ws : List Word} {s : State} :
    wordsAt (k :: ks) ws s ↔
      ∃ w ws', ws = w :: ws' ∧ memWord k s = some w ∧ mget 0 k s.marks = 0 ∧ wordsAt ks ws' s := by
  constructor
  · rintro ⟨h, hmarks⟩
    obtain ⟨hm, hms⟩ := List.forall_mem_cons.mp hmarks
    cases ws with
    | nil => exact absurd h (List.cons_ne_nil _ _)
    | cons w ws =>
      obtain ⟨hw, hws⟩ := List.cons.inj h
      exact ⟨w, ws, rfl, hw, hm, hws, hms⟩
  · rintro ⟨w, ws, rfl, hw, hm, hws, hms⟩
    exact ⟨List.cons_eq_cons.mpr ⟨hw, hws⟩, List.forall_mem_cons.mpr ⟨hm, hms⟩⟩

theorem memReadQuiet_clean {k : Nat} {w : Word} {s : State} (hw : memWord k s = some w) (hm : mget 0 k s.marks = 0) :
    memReadQuiet k s = (w, false, s) := by
  simp [memReadQuiet, memRead, memGet, hw, hm]

/-- The bellows reads a run of such words as memory holds them and changes nothing. -/
theorem subReadsBy_clean {sub : Sub} {a n : Nat} {ks : List Nat} {ws : List Word} {s : State}
    (hp : placesAt sub ((span a n).map fun i => i % 2 ^ 32) ks s) (hw : wordsAt ks ws s) :
    subReadsBy true sub.toNat a n s = (ws, false, s) := by
  induction n generalizing a ks ws with
  | zero =>
    obtain rfl : ks = [] := by simpa [placesAt, span] using hp.symm
    obtain rfl : ws = [] := by simpa using hw.1.symm
    rfl
  | succ n ih =>
    obtain ⟨k, ks, rfl, (hk : subPlace sub.toNat (a % 2 ^ 32) s = .mem k), hp⟩ := placesAt_cons.mp hp
    obtain ⟨w, ws, rfl, hkw, hm, hw⟩ := wordsAt_cons.mp hw
    rw [subReadsBy, hk]
    simp [memReadQuiet_clean hkw hm, ih hp hw]

/-! ### Lookahead (R88) -/

/-- A CCW of the path with an internal code joins the lookahead buffer. -/
theorem lookFetch_internal {sub : Sub} {s : State} {a : Nat} {ks : List Nat} {ws : List Word}
    (hlook : bit (blwCtl sub.toNat s) 0 = true)
    (hroom : (sch sub.toNat s).look.length < fld (blwCtl sub.toNat s) 6 4) (hbase : lookBase (sch sub.toNat s) = true)
    (hnext : lookNext sub.toNat s = some (a, false)) (hctl : ctlOk sub.toNat a s = true)
    (hp : placesAt sub ((span a 8).map fun i => i % 2 ^ 32) ks s) (hw : wordsAt ks ws s) (hproc : wProc ws = false) :
    lookFetch sub.toNat s = modSch sub.toNat (fun y => { y with
      look := y.look ++ [{ addr := BitVec.ofNat 32 a, words := ws, entry := none }] }) s := by
  simp [lookFetch, hlook, Nat.not_le.mpr hroom, hbase, hnext, hctl, subReadsBy_clean hp hw, readEntryBy, hproc]

/-! ### Data prefetch (R89) -/

/-- A memory word without a stored error joins the prefetch buffer. -/
theorem prefetchWord_mem {sub a k : Nat} {w : Word} {s : State} (hk : subPlace sub a s = .mem k)
    (hw : memWord k s = some w) (hm : mget 0 k s.marks = 0) :
    prefetchWord sub a s = modSch sub (fun y => { y with prefetch := y.prefetch ++ [(k, w)] }) s := by
  simp [prefetchWord, hk, memReadQuiet_clean hw hm]

/-- A run of such words joins the prefetch buffer in order; all else is as it was. -/
theorem forAll_prefetchWord {sub : Sub} {as ks : List Nat} {ws : List Word} {s : State}
    (hp : placesAt sub as ks s) (hw : wordsAt ks ws s) :
    sch sub.toNat (forAll as (prefetchWord sub.toNat) s) =
        { sch sub.toNat s with prefetch := (sch sub.toNat s).prefetch ++ ks.zip ws } ∧
      (∀ m, m ≠ sub.toNat → sch m (forAll as (prefetchWord sub.toNat) s) = sch m s) ∧
      forAll as (prefetchWord sub.toNat) s = { s with sch := (forAll as (prefetchWord sub.toNat) s).sch } := by
  induction as generalizing ks ws s with
  | nil =>
    obtain rfl : ks = [] := by simpa [placesAt] using hp.symm
    simp
  | cons a as ih =>
    obtain ⟨k, ks, rfl, hk, hp⟩ := placesAt_cons.mp hp
    obtain ⟨w, ws, rfl, hkw, hm, hw⟩ := wordsAt_cons.mp hw
    rw [forAll_cons, prefetchWord_mem hk hkw hm]
    obtain ⟨hsub, hother, hrest⟩ := ih (ks := ks) (ws := ws)
      (s := modSch sub.toNat (fun y => { y with prefetch := y.prefetch ++ [(k, w)] }) s) hp hw
    refine ⟨?_, fun m hne => (hother m hne).trans (sch_modSch_ne _ _ hne), hrest⟩
    rw [hsub, sch_modSch_same]
    simp

theorem span_add (a b n : Nat) : span (a + b) n = (span b n).map (a + ·) := by
  induction n generalizing b with
  | zero => rfl
  | succ n ih => rw [span, span, List.map_cons, ← ih (b + 1), Nat.add_assoc]

theorem span_eq_map (a n : Nat) : span a n = (span 0 n).map (a + ·) := span_add a 0 n

theorem dataOk_of_placesAt {sub : Sub} {a : Nat} {as ks : List Nat} {s : State} (hp : placesAt sub as ks s) (ha : a ∈ as)
    (hlt : a < 2 ^ 32) : dataOk sub.toNat a s = true := by
  have hmem : subPlace sub.toNat a s ∈ ks.map Place.mem := hp ▸ List.mem_map_of_mem ha
  obtain ⟨k, -, hk⟩ := List.mem_map.mp hmem
  rw [dataOk, Nat.mod_eq_of_lt hlt, ← hk]

/-- The first 16 words of an output segment in increment mode, all of them in memory, are read ahead. -/
theorem prefetchData_increment {sub : Sub} {s : State} {c : LookCcw} {rest : List LookCcw} {e : Word × Word}
    (hlook : bit (blwCtl sub.toNat s) 0 = true) (hdpf : bit (blwCtl sub.toNat s) 2 = true)
    (hc : (sch sub.toNat s).look = c :: rest) (he : c.entry = some e) (hdir : entDir e = 2)
    (hida : wFlag c.words 4 = false) (hmode : wAmode c.words = 0) (hend : wDaddr c.words + 16 ≤ 2 ^ 32)
    (hcount : 32 ≤ wCount c.words) {ks : List Nat} (hp : placesAt sub (span (wDaddr c.words) 16) ks s) :
    prefetchData sub.toNat s = forAll (span (wDaddr c.words) 16) (prefetchWord sub.toNat)
      (modSch sub.toNat (fun y => { y with prefetch := [], preFor := c.addr }) s) := by
  have hsegs : min 16 (segWords (wCount c.words)) = 16 := by unfold segWords; omega
  have hseg : ∀ i, segAddr c.words (wDaddr c.words) i = wDaddr c.words + i := fun i => by simp [segAddr, hmode]
  have haddr : (span 0 16).map (fun i => segAddr c.words (wDaddr c.words) i % 2 ^ 32) = span (wDaddr c.words) 16 := by
    rw [span_eq_map (wDaddr c.words)]
    refine List.map_congr_left fun i hi => ?_
    have := (mem_span.mp hi).2
    rw [hseg, Nat.mod_eq_of_lt (by omega)]
  have hall : (span (wDaddr c.words) 16).all (fun a => dataOk sub.toNat a s) = true :=
    List.all_eq_true.mpr fun a ha => dataOk_of_placesAt hp ha (by have := mem_span.mp ha; omega)
  simp only [prefetchData, hlook, hdpf, hc, he, hdir, hida, hsegs, haddr, hall]
  rfl

theorem exec_dataPrefetch {sub : Sub} {s : State} (hup : up s = true) {c : LookCcw} {rest : List LookCcw}
    {e : Word × Word} {ks : List Nat} {ws : List Word}
    (hlook : bit (blwCtl sub.toNat s) 0 = true) (hdpf : bit (blwCtl sub.toNat s) 2 = true)
    (hc : (sch sub.toNat s).look = c :: rest) (he : c.entry = some e) (hdir : entDir e = 2)
    (hida : wFlag c.words 4 = false) (hmode : wAmode c.words = 0) (hend : wDaddr c.words + 16 ≤ 2 ^ 32)
    (hcount : 32 ≤ wCount c.words) (hp : placesAt sub (span (wDaddr c.words) 16) ks s) (hw : wordsAt ks ws s) :
    ∃ u, exec (.dataPrefetch sub) s = .next (done s u) ∧
      sch sub.toNat u = { sch sub.toNat s with prefetch := ks.zip ws, preFor := c.addr } ∧
      (∀ m, m ≠ sub.toNat → sch m u = sch m s) ∧ u.ctx = s.ctx ∧ u.mem = s.mem ∧ u.regs = s.regs := by
  refine ⟨prefetchData sub.toNat s, act_up _ hup, ?_⟩
  rw [prefetchData_increment hlook hdpf hc he hdir hida hmode hend hcount hp]
  obtain ⟨hsub, hother, hrest⟩ := forAll_prefetchWord
    (s := modSch sub.toNat (fun y => { y with prefetch := [], preFor := c.addr }) s) hp hw
  refine ⟨?_, fun m hne => (hother m hne).trans (sch_modSch_ne _ _ hne), ?_, ?_, ?_⟩
  · rw [hsub, sch_modSch_same]; rfl
  all_goals rw [hrest]; rfl

/-! ### What opening a segment leaves as it is (R60 to R63) -/

/-- The contexts and memory, which a read does not change. -/
def pathView (s : State) : FMap Ctx × List Host.Cell := (s.ctx, s.mem)

@[simp] theorem pathView_setRg (n o : Nat) (v : Word) (s : State) : pathView (setRg n o v s) = pathView s := by
  rw [pathView, setRg_ctx, setRg_mem, pathView]

@[simp] theorem pathView_setRgs (n o : Nat) (ws : List Word) (s : State) : pathView (setRgs n o ws s) = pathView s := by
  induction ws generalizing o s with
  | nil => rfl
  | cons w ws ih => rw [setRgs, ih, pathView_setRg]

section
variable (n o : Nat) (s : State)
@[simp] theorem pathView_countBy (m : Nat) : pathView (countBy n o m s) = pathView s := by rw [countBy, pathView_setRgs]
@[simp] theorem pathView_count : pathView (count n o s) = pathView s := pathView_countBy _ _ _ _
@[simp] theorem pathView_raise (u : Word) : pathView (raise n o u s) = pathView s := by
  rw [pathView, raise, addDue_ctx, addDue_mem, pathView]
@[simp] theorem pathView_markBlock : pathView (markBlock n o s) = pathView s := by
  rw [pathView, markBlock, pathView]
@[simp] theorem pathView_modSch (f : Sch → Sch) : pathView (modSch n f s) = pathView s := by
  rw [pathView, modSch_ctx, modSch_mem, pathView]
end

@[simp] theorem pathView_memGet (k : Nat) (s : State) : pathView (memGet k s).2 = pathView s := by
  unfold memGet
  split <;> rfl

@[simp] theorem pathView_memRead (k : Nat) (s : State) : pathView (memRead k s).2.2 = pathView s := by
  unfold memRead
  dsimp only
  repeat' split
  all_goals simp [sramCe, sramUe, gdErr, setRgBit]

@[simp] theorem pathView_subReads (sub a n : Nat) (s : State) : pathView (subReads sub a n s).2.2 = pathView s := by
  unfold subReads
  induction n generalizing a s with
  | zero => rfl
  | succ n ih =>
    rw [subReadsBy]
    split <;> simp [ih]

@[simp] theorem pathView_openSeg (sub : Nat) (s : State) : pathView (openSeg sub s).2 = pathView s := by
  unfold openSeg
  dsimp only
  repeat' split
  all_goals simp

@[simp] theorem pathView_withX (sub : Nat) (c : LookCcw) (s : State) : pathView (withX sub c s).2 = pathView s :=
  (pathView_openSeg _ _).trans (pathView_modSch _ _ _)

theorem withX_ctx (sub : Nat) (c : LookCcw) (s : State) : (withX sub c s).2.ctx = s.ctx :=
  congrArg Prod.fst (pathView_withX sub c s)

theorem withX_mem (sub : Nat) (c : LookCcw) (s : State) : (withX sub c s).2.mem = s.mem :=
  congrArg Prod.snd (pathView_withX sub c s)

/-! ### Speculative entry (R94, R95) -/

section
variable (ws : List Word) (ccw : W32) (d1 d3 d4 : Word) (d5 e0 pc : Nat) (c : Ctx)
theorem entryRegs_pc : (entryRegs ws ccw d1 d3 d4 d5 e0 pc c).pc = BitVec.ofNat 24 pc := rfl

/-- D0 of a procedure entry is the CCW's first word (R68). -/
theorem getD_entryRegs_zero : getD 0 (entryRegs ws ccw d1 d3 d4 d5 e0 pc c) = nth ws 0 := by
  simp [getD, entryRegs, putR, mget_mset_ne]

/-- D5 of a procedure entry says why it was entered (R68). -/
theorem getD_entryRegs_five : getD 5 (entryRegs ws ccw d1 d3 d4 d5 e0 pc c) = wd d5 := by
  simp [getD, entryRegs, putR, mget_mset_ne]
end

theorem wProc_of_specOk {sub : Nat} {c : LookCcw} {n : Nat} {s : State} (h : specOk sub c n s = true) :
    wProc c.words = true := by
  unfold specOk at h
  split at h
  · exact absurd h Bool.false_ne_true
  · simp only [Bool.and_eq_true] at h
    obtain ⟨⟨⟨⟨-, hproc⟩, -⟩, -⟩, -⟩ := h
    exact hproc

/-- A procedure's CCW at the head of the lookahead buffer is no TIC, so it is X (R94). -/
theorem lookX_head {c : LookCcw} {rest : List LookCcw} {n : Nat} (h : wProc c.words = true) :
    lookX (c :: rest) n = some (c, n) := by
  have hcode : 0x10 ≤ wCode c.words := of_decide_eq_true h
  rw [lookX, if_neg (by omega)]

/-- The bellows enters the head of the lookahead buffer when all of R94 holds of it, and it is not timed. -/
theorem specEntry_enters {sub : Nat} {c : LookCcw} {rest : List LookCcw} {s : State}
    (hphase : (sch sub s).phase = .deferred) (hst : (sch sub s).st = .active) (hhalt : (sch sub s).haltReq = false)
    (hpath : (sch sub s).pathReq = false) (hspec : (sch sub s).noSpec = false) (hlook : bit (blwCtl sub s) 0 = true)
    (hexec : bit (blwCtl sub s) 1 = true) (hfree : (stk (stkOf sub) s).spec = none)
    (hcc : wFlag (sch sub s).words 0 = true) (hcd : wFlag (sch sub s).words 1 = false)
    (hruns : stkRuns (stkOf sub) s = true) (hc : (sch sub s).look = c :: rest) (hok : specOk sub c 0 s = true)
    (htimed : wFlag c.words 7 = false) : specEntry sub s = specEnter sub c s := by
  simp [specEntry, hphase, hst, hhalt, hpath, hspec, hlook, hexec, hfree, hcc, hcd, hruns, hc,
    lookX_head (wProc_of_specOk hok), hok, specTimeOk, htimed]

section
variable (n o m : Nat) (s : State)
theorem countBy_ctx : (countBy n o m s).ctx = s.ctx := by simp only [countBy, wordsOf, setRgs, setRg_ctx]
theorem countBy_sch : (countBy n o m s).sch = s.sch := by simp only [countBy, wordsOf, setRgs, setRg_sch]
theorem countBy_stk : (countBy n o m s).stk = s.stk := by simp only [countBy, wordsOf, setRgs, setRg_stk]
end

section
variable (sub i m k : Nat) (s : State)
@[simp] theorem ctx_blwCount : ctx k (blwCount sub i m s) = ctx k s := by
  rw [ctx, blwCount, countBy_ctx, ctx]
@[simp] theorem sch_blwCount : sch k (blwCount sub i m s) = sch k s := by
  rw [sch, blwCount, countBy_sch, sch]
@[simp] theorem stk_blwCount : stk k (blwCount sub i m s) = stk k s := by
  rw [stk, blwCount, countBy_stk, stk]
@[simp] theorem blwCount_mem : (blwCount sub i m s).mem = s.mem := countBy_mem _ _ _ _
end

section
variable (sub k : Nat) (r : Run) (s : State)
@[simp] theorem sch_setRun : sch k (setRun sub r s) = sch k s := rfl
@[simp] theorem stk_setRun : stk k (setRun sub r s) = stk k s := rfl
@[simp] theorem stk_modCtx (f : Ctx → Ctx) : stk k (modCtx sub f s) = stk k s := rfl
@[simp] theorem setRun_mem : (setRun sub r s).mem = s.mem := rfl

theorem ctx_setRun_pc : (ctx sub (setRun sub r s)).pc = (ctx sub s).pc := by
  simp only [setRun, addDue, modCtx, ctx, mget_mmod_same]
  split <;> rfl

theorem getD_ctx_setRun : getD k (ctx sub (setRun sub r s)) = getD k (ctx sub s) := by
  simp only [setRun, addDue, modCtx, ctx, mget_mmod_same]
  split <;> rfl
end

/-- A speculative entry, from a state t that differs from s by the reads for X's segment alone: the path begins, with the
checkpoint; then the context takes the entry registers of X. -/
theorem specEnter_eq {sub : Nat} {c : LookCcw} {e : Word × Word} {s : State} (he : c.entry = some e)
    (hopen : (withX sub c s).1 = none) :
    ∃ t p d3 d4 e0, specEnter sub c s = setRun sub .ready (blwCount sub 0x4 1
        (modCtx sub (entryRegs c.words c.addr (nth c.words 1) d3 d4 0 e0 (entPc e))
          (modStk (stkOf sub) (fun x => { x with spec := some p }) t))) ∧
      t.ctx = s.ctx ∧ t.sch = s.sch ∧ t.mem = s.mem ∧
      p.owner = ctxOf sub ∧ p.x = c ∧ p.ckpt = ctx sub t ∧ p.sbuf = [] := by
  simp only [specEnter, hopen, he]
  exact ⟨{ (withX sub c s).2 with sch := s.sch }, _, _, _, _, rfl, withX_ctx sub c s, rfl, withX_mem sub c s,
    rfl, rfl, rfl, rfl⟩

/-- The path keeps the checkpoint and X; the context has X's entry registers; the subchannel and memory are as they were. -/
theorem specEnter_spec {sub : Nat} {c : LookCcw} {e : Word × Word} {s : State} (he : c.entry = some e)
    (hopen : (withX sub c s).1 = none) :
    ∃ p, (stk (stkOf sub) (specEnter sub c s)).spec = some p ∧ p.owner = ctxOf sub ∧ p.x = c ∧ p.ckpt = ctx sub s ∧
      p.sbuf = [] ∧ (ctx sub (specEnter sub c s)).pc = BitVec.ofNat 24 (entPc e) ∧
      getD 0 (ctx sub (specEnter sub c s)) = nth c.words 0 ∧ getD 5 (ctx sub (specEnter sub c s)) = 0 ∧
      sch sub (specEnter sub c s) = sch sub s ∧ (specEnter sub c s).mem = s.mem := by
  obtain ⟨t, p, d3, d4, e0, henter, hctx, hsch, hmem, howner, hx, hckpt, hsbuf⟩ := specEnter_eq he hopen
  rw [henter]
  refine ⟨p, ?_, howner, hx, hckpt.trans (congrArg (mget ({} : Ctx) sub) hctx), hsbuf, ?_, ?_, ?_, ?_, ?_⟩
  · rw [stk_setRun, stk_blwCount, stk_modCtx, stk_modStk_same]
  · rw [ctx_setRun_pc, ctx_blwCount, ctx_modCtx_same, entryRegs_pc]
  · rw [getD_ctx_setRun, ctx_blwCount, ctx_modCtx_same, getD_entryRegs_zero]
  · rw [getD_ctx_setRun, ctx_blwCount, ctx_modCtx_same, getD_entryRegs_five]
    rfl
  · rw [sch_setRun, sch_blwCount]
    exact congrArg (mget ({} : Sch) sub) hsch
  · rw [setRun_mem, blwCount_mem]
    exact hmem

/-! ### Delivery of a deferred status (R92, R93) -/

/-- A status that arrives while no return is pending, and none is held, is held. -/
theorem deliverNext_held {sub : Nat} {d : Byte} {pf : Bool} {rest : List (Byte × Bool)} {s : State}
    (ha : (sch sub s).arriving = (d, pf) :: rest) (hphase : (sch sub s).phase = .proc)
    (hnone : (sch sub s).delivered = none) :
    deliverNext sub s =
      modSch sub (fun y => { y with delivered := some (d, pf) }) (modSch sub (fun y => { y with arriving := rest }) s) := by
  simp [deliverNext, ha, deliver, hphase, hnone]

theorem squash_of_no_path {sub : Nat} {s : State} (h : specOf sub s = none) : squash sub s = s := by
  simp [squash, h]

/-- A status that arrives for a pending return without a speculative path completes the return. -/
theorem deliverNext_returns {sub : Nat} {d : Byte} {pf : Bool} {rest : List (Byte × Bool)} {s : State}
    (ha : (sch sub s).arriving = (d, pf) :: rest) (hphase : (sch sub s).phase = .deferred) (hpath : specOf sub s = none) :
    deliverNext sub s = setStep sub (.ret d pf true) (modSch sub (fun y => { y with arriving := rest }) s) := by
  have hpath' : specOf sub (modSch sub (fun y => { y with arriving := rest }) s) = none := hpath
  simp [deliverNext, ha, deliver, hphase, hpath', squash_of_no_path hpath']

/-! ### Tentative horizons (R101) -/

/-- Two changes of a pin that agree on the pin as it stands are one. -/
theorem modPin_congr {k : Nat} {f g : Pin → Pin} {s : State} (h : f (pin k s) = g (pin k s)) :
    modPin k f s = modPin k g s := by
  simp only [modPin, mmod]
  rw [show f (mget {} k s.pins) = g (mget {} k s.pins) from h]

/-- The horizon of the only entry of a pin's fire queue, a tentative one, squashes its path. -/
theorem horizon_squashes {p sub : Nat} {e : FqEntry} {s : State} (hq : (pin p s).fq = [e]) (ht : e.tent = true)
    (hsub : e.sub = some sub) (hpath : (specOf sub s).isSome = true) :
    horizon p e.time s = squash sub (blwCount sub 0xA 1 (modSch sub (fun y => { y with noSpec := true })
      (modPin p (fun q => { q with fq := [] }) (reachFine (e.time - 512) s)))) := by
  have hfind : ((pin p s).fq.find? fun x => x.tent && x.time == e.time) = some e := by simp [hq, ht]
  have hgone : modPin p (fun q => { q with fq := q.fq.filter fun x => !(x.tent && x.time == e.time && x.sub == e.sub) })
      (reachFine (e.time - 512) s) = modPin p (fun q => { q with fq := [] }) (reachFine (e.time - 512) s) := by
    have hq' : (pin p (reachFine (e.time - 512) s)).fq = [e] := hq
    exact modPin_congr (by simp [hq', ht])
  have hpath' : (specOf sub (modPin p (fun q => { q with fq := [] }) (reachFine (e.time - 512) s))).isSome = true := hpath
  rw [horizon, hfind]
  dsimp only
  rw [hgone, hsub]
  exact if_pos hpath'

/-! ### The statement -/

/-- Settles O36, clause by clause: each command has the frame of `act` around the effect that its clause names. -/
theorem bellowsCommands : Obligations.BellowsCommands := by
  intro sub s hup
  refine ⟨?_, ?_, ?_, ?_, ?_⟩
  · intro a ks ws hlook hroom hbase hnext hctl hp hw hproc
    exact (act_up _ hup).trans (by rw [lookFetch_internal hlook hroom hbase hnext hctl hp hw hproc])
  · intro c e rest ks ws
    exact exec_dataPrefetch hup
  · intro c rest e hphase hst hhalt hpath hspec hlook hexec hfree hcc hcd hruns hc he hok htimed hopen _ _
    obtain ⟨p, hp⟩ := specEnter_spec he hopen
    refine ⟨specEnter sub.toNat c s, p, (act_up _ hup).trans ?_, hp⟩
    rw [specEntry_enters hphase hst hhalt hpath hspec hlook hexec hfree hcc hcd hruns hc hok htimed]
  · intro d pf rest ha
    refine ⟨fun hphase hnone => (act_up _ hup).trans ?_, fun hphase hpath => (act_up _ hup).trans ?_⟩
    · rw [deliverNext_held ha hphase hnone]
    · rw [deliverNext_returns ha hphase hpath]
  · intro p e hq ht hsub htime hpath
    refine (act_up _ hup).trans ?_
    rw [BitVec.toNat_ofNat, Nat.mod_eq_of_lt htime, horizon_squashes hq ht hsub hpath]

end Sys2Proof.Proofs.Bellows
end
